-- ==== Sys2Proof/Word.lean ====
section
/-! DEFINITION. The word types of the machine (spec/10_state.md R20, R22, R23; spec/30_encoding.md R70, R71).
Every value is unsigned; nothing is sign-extended (spec/00_scope.md R7). -/

namespace Sys2Proof

/-- A general register, a memory byte, the `NN` immediate field: 8 bits (R20, R25, R71). -/
abbrev Byte := BitVec 8

/-- An instruction word, and the width of `I`, `PC` and a stack entry: 16 bits (R22, R23, R24, R70). -/
abbrev Word := BitVec 16

/-- The address field `NNN`: 12 bits (R71). -/
abbrev Addr := BitVec 12

/-- The number of a general register, 0 to 15, and of a key, 0 to 15 (R20, R27). -/
abbrev Reg := Fin 16

end Sys2Proof
end

