-- ==== Sys2Proof/Syntax.lean ====
section
/-! DEFINITION. The instructions: one constructor per row of spec/opcode_table.json (spec/30_encoding.md R75), and the
result of decoding (R74). `x`, `y` are the register fields `X`, `Y`; `nn`, `nnn`, `n` the fields `NN`, `NNN`, `N`. -/

namespace Sys2Proof

/-- The 34 instructions of R75, in the table's order. -/
inductive Instr where
  /-- Row 1, 00E0, `CLS` (R150). -/
  | cls
  /-- Row 2, 00EE, `RET` (R102). -/
  | ret
  /-- Row 3, 1NNN, `JP NNN` (R103). -/
  | jp (nnn : Addr)
  /-- Row 4, 2NNN, `CALL NNN` (R104). -/
  | call (nnn : Addr)
  /-- Row 5, 3XNN, `SE Vx, NN` (R105). -/
  | seImm (x : Reg) (nn : Byte)
  /-- Row 6, 4XNN, `SNE Vx, NN` (R106). -/
  | sneImm (x : Reg) (nn : Byte)
  /-- Row 7, 5XY_, `SE Vx, Vy` (R107); the ignored low nibble is no operand (R80). -/
  | seReg (x y : Reg)
  /-- Row 8, 6XNN, `LD Vx, NN` (R120). -/
  | ldImm (x : Reg) (nn : Byte)
  /-- Row 9, 7XNN, `ADD Vx, NN` (R121). -/
  | addImm (x : Reg) (nn : Byte)
  /-- Row 10, 8XY0, `LD Vx, Vy` (R122). -/
  | ldReg (x y : Reg)
  /-- Row 11, 8XY1, `OR Vx, Vy` (R123). -/
  | or (x y : Reg)
  /-- Row 12, 8XY2, `AND Vx, Vy` (R124). -/
  | and (x y : Reg)
  /-- Row 13, 8XY3, `XOR Vx, Vy` (R125). -/
  | xor (x y : Reg)
  /-- Row 14, 8XY4, `ADD Vx, Vy` (R126). -/
  | addReg (x y : Reg)
  /-- Row 15, 8XY5, `SUB Vx, Vy` (R127). -/
  | sub (x y : Reg)
  /-- Row 16, 8XY6, `SHR Vx` (R128); `Y` is read only if `SHIFT_SRC` = Y. -/
  | shr (x y : Reg)
  /-- Row 17, 8XY7, `SUBN Vx, Vy` (R129). -/
  | subn (x y : Reg)
  /-- Row 18, 8XYE, `SHL Vx` (R130); `Y` is read only if `SHIFT_SRC` = Y. -/
  | shl (x y : Reg)
  /-- Row 19, 9XY_, `SNE Vx, Vy` (R108); the ignored low nibble is no operand (R80). -/
  | sneReg (x y : Reg)
  /-- Row 20, ANNN, `LD I, NNN` (R140). -/
  | ldI (nnn : Addr)
  /-- Row 21, BNNN, `JP V0, NNN` (R109). -/
  | jpV0 (nnn : Addr)
  /-- Row 22, CXNN, `RND Vx, NN` (R131). -/
  | rnd (x : Reg) (nn : Byte)
  /-- Row 23, DXYN, `DRW Vx, Vy, N` (R151); `n` is the sprite height, 0 to 15. -/
  | drw (x y : Reg) (n : Fin 16)
  /-- Row 24, EX9E, `SKP Vx` (R160). -/
  | skp (x : Reg)
  /-- Row 25, EXA1, `SKNP Vx` (R161). -/
  | sknp (x : Reg)
  /-- Row 26, FX07, `LD Vx, DT` (R163). -/
  | ldVxDt (x : Reg)
  /-- Row 27, FX0A, `LD Vx, K` (R162). -/
  | ldVxK (x : Reg)
  /-- Row 28, FX15, `LD DT, Vx` (R164). -/
  | ldDtVx (x : Reg)
  /-- Row 29, FX18, `LD ST, Vx` (R165). -/
  | ldStVx (x : Reg)
  /-- Row 30, FX1E, `ADD I, Vx` (R141). -/
  | addI (x : Reg)
  /-- Row 31, FX29, `LD F, Vx` (R142). -/
  | ldF (x : Reg)
  /-- Row 32, FX33, `LD B, Vx` (R143). -/
  | ldB (x : Reg)
  /-- Row 33, FX55, `LD [I], Vx` (R144). -/
  | ldMemVx (x : Reg)
  /-- Row 34, FX65, `LD Vx, [I]` (R145). -/
  | ldVxMem (x : Reg)
  deriving DecidableEq, Repr

/-- What `decode` answers (R74): one of the 34 instructions, or `Unknown(w)` carrying the raw word. -/
inductive Decoded where
  | instr (i : Instr)
  | unknown (w : Word)
  deriving DecidableEq, Repr

end Sys2Proof
end

