-- ==== Sys2Proof/Decode.lean ====
section
/-! DEFINITION. Decoding (spec/30_encoding.md R70 to R83) and the encoder after it. -/

namespace Sys2Proof

/-- Four bits of the word, from bit `lo` up (R71). -/
def nibbleAt (w : Word) (lo : Nat) : BitVec 4 := w.extractLsb' lo 4

/-- `OP` = `w[15:12]`, the primary category (R71, R73). -/
def opField (w : Word) : BitVec 4 := nibbleAt w 12

/-- `X` = `w[11:8]` (R71). -/
def xField (w : Word) : Reg := (nibbleAt w 8).toFin

/-- `Y` = `w[7:4]` (R71). -/
def yField (w : Word) : Reg := (nibbleAt w 4).toFin

/-- `N` = `w[3:0]` (R71). -/
def nField (w : Word) : BitVec 4 := nibbleAt w 0

/-- `NN` = `w[7:0]` (R71). -/
def nnField (w : Word) : Byte := w.extractLsb' 0 8

/-- `NNN` = `w[11:0]` (R71). -/
def nnnField (w : Word) : Addr := w.extractLsb' 0 12

/-- Category 0: the whole word is compared (R76, D9). -/
def decode0 (w : Word) : Decoded :=
  if w = 0x00E0#16 then .instr .cls
  else if w = 0x00EE#16 then .instr .ret
  else .unknown w

/-- Category 8: the low nibble selects (R77). -/
def decode8 (w : Word) : Decoded :=
  let x := xField w
  let y := yField w
  match (nField w).toNat with
  | 0x0 => .instr (.ldReg x y)
  | 0x1 => .instr (.or x y)
  | 0x2 => .instr (.and x y)
  | 0x3 => .instr (.xor x y)
  | 0x4 => .instr (.addReg x y)
  | 0x5 => .instr (.sub x y)
  | 0x6 => .instr (.shr x y)
  | 0x7 => .instr (.subn x y)
  | 0xE => .instr (.shl x y)
  | _ => .unknown w

/-- Category E: the low byte selects (R78). -/
def decodeE (w : Word) : Decoded :=
  let nn := nnField w
  if nn = 0x9E#8 then .instr (.skp (xField w))
  else if nn = 0xA1#8 then .instr (.sknp (xField w))
  else .unknown w

/-- Category F: the low byte selects (R79). -/
def decodeF (w : Word) : Decoded :=
  let x := xField w
  let nn := nnField w
  if nn = 0x07#8 then .instr (.ldVxDt x)
  else if nn = 0x0A#8 then .instr (.ldVxK x)
  else if nn = 0x15#8 then .instr (.ldDtVx x)
  else if nn = 0x18#8 then .instr (.ldStVx x)
  else if nn = 0x1E#8 then .instr (.addI x)
  else if nn = 0x29#8 then .instr (.ldF x)
  else if nn = 0x33#8 then .instr (.ldB x)
  else if nn = 0x55#8 then .instr (.ldMemVx x)
  else if nn = 0x65#8 then .instr (.ldVxMem x)
  else .unknown w

/-- Categories 5 and 9: the low nibble is ignored, unless the option `STRICT_5_9` makes a non-zero one `Unknown`
(R80, D10). -/
def decode59 (strict : Bool) (w : Word) (i : Instr) : Decoded :=
  if strict && nField w != 0#4 then .unknown w else .instr i

/-- `decode` of R74 under the option `STRICT_5_9` = `strict`: total, with no state; the top nibble selects (R73). -/
def decodeWith (strict : Bool) (w : Word) : Decoded :=
  match (opField w).toNat with
  | 0x0 => decode0 w
  | 0x1 => .instr (.jp (nnnField w))
  | 0x2 => .instr (.call (nnnField w))
  | 0x3 => .instr (.seImm (xField w) (nnField w))
  | 0x4 => .instr (.sneImm (xField w) (nnField w))
  | 0x5 => decode59 strict w (.seReg (xField w) (yField w))
  | 0x6 => .instr (.ldImm (xField w) (nnField w))
  | 0x7 => .instr (.addImm (xField w) (nnField w))
  | 0x8 => decode8 w
  | 0x9 => decode59 strict w (.sneReg (xField w) (yField w))
  | 0xA => .instr (.ldI (nnnField w))
  | 0xB => .instr (.jpV0 (nnnField w))
  | 0xC => .instr (.rnd (xField w) (nnField w))
  | 0xD => .instr (.drw (xField w) (yField w) (nField w).toFin)
  | 0xE => decodeE w
  | _ => decodeF w

/-- `decode(word: 16-bit) -> Instruction` with the default options (R70, R74). -/
def decode (w : Word) : Decoded := decodeWith false w

/-- The instruction word of two consecutive bytes, the byte at the lower address high (spec/20_memory.md R52). -/
def wordOfBytes (hi lo : Byte) : Word := hi ++ lo

/-- The two bytes of a word as the hardware stores them, the first at the lower address (R52). -/
def highByte (w : Word) : Byte := w.extractLsb' 8 8

/-- The byte at the higher address (R52). -/
def lowByte (w : Word) : Byte := w.extractLsb' 0 8

/-- Decoding from bytes: the first instruction and the bytes after it, or nothing when fewer than two bytes are left
(R70, R83: every instruction is two bytes). -/
def decodeBytes : List Byte → Option (Decoded × List Byte)
  | hi :: lo :: rest => some (decode (wordOfBytes hi lo), rest)
  | _ => none

/-- The instruction word whose bits are `w` below `nbits`, the bits above being 0. -/
def tableWord (nbits w : Nat) : Word := BitVec.ofNat 16 (w % 2 ^ nbits)

/-- The instruction the decoder reads from an instruction whose bits are `w`, numbered as the opcode table numbers
them: the word is laid out in its byte order and given to the decoder. -/
def decodeTableWord (nbits w : Nat) : Option Instr :=
  let word := tableWord nbits w
  match decodeBytes [highByte word, lowByte word] with
  | some (.instr i, _) => some i
  | some (.unknown _, _) => none
  | none => none

/-! ### The encoder: the words of R75, by the formats of R72. -/

/-- Format A: `OP`, `NNN`. -/
def encodeA (op : BitVec 4) (nnn : Addr) : Word := op ++ nnn

/-- Format I, and format S with the selector as the low byte: `OP`, `X`, `NN`. -/
def encodeI (op : BitVec 4) (x : Reg) (nn : Byte) : Word := op ++ BitVec.ofNat 4 x.val ++ nn

/-- Formats R and D: `OP`, `X`, `Y`, low nibble. -/
def encodeR (op : BitVec 4) (x y : Reg) (n : BitVec 4) : Word :=
  op ++ BitVec.ofNat 4 x.val ++ BitVec.ofNat 4 y.val ++ n

/-- The canonical word of an instruction (R75; the ignored nibble of 5XY_ and 9XY_ is 0, R80). -/
def encode : Instr → Word
  | .cls => 0x00E0#16
  | .ret => 0x00EE#16
  | .jp nnn => encodeA 0x1#4 nnn
  | .call nnn => encodeA 0x2#4 nnn
  | .seImm x nn => encodeI 0x3#4 x nn
  | .sneImm x nn => encodeI 0x4#4 x nn
  | .seReg x y => encodeR 0x5#4 x y 0x0#4
  | .ldImm x nn => encodeI 0x6#4 x nn
  | .addImm x nn => encodeI 0x7#4 x nn
  | .ldReg x y => encodeR 0x8#4 x y 0x0#4
  | .or x y => encodeR 0x8#4 x y 0x1#4
  | .and x y => encodeR 0x8#4 x y 0x2#4
  | .xor x y => encodeR 0x8#4 x y 0x3#4
  | .addReg x y => encodeR 0x8#4 x y 0x4#4
  | .sub x y => encodeR 0x8#4 x y 0x5#4
  | .shr x y => encodeR 0x8#4 x y 0x6#4
  | .subn x y => encodeR 0x8#4 x y 0x7#4
  | .shl x y => encodeR 0x8#4 x y 0xE#4
  | .sneReg x y => encodeR 0x9#4 x y 0x0#4
  | .ldI nnn => encodeA 0xA#4 nnn
  | .jpV0 nnn => encodeA 0xB#4 nnn
  | .rnd x nn => encodeI 0xC#4 x nn
  | .drw x y n => encodeR 0xD#4 x y (BitVec.ofNat 4 n.val)
  | .skp x => encodeI 0xE#4 x 0x9E#8
  | .sknp x => encodeI 0xE#4 x 0xA1#8
  | .ldVxDt x => encodeI 0xF#4 x 0x07#8
  | .ldVxK x => encodeI 0xF#4 x 0x0A#8
  | .ldDtVx x => encodeI 0xF#4 x 0x15#8
  | .ldStVx x => encodeI 0xF#4 x 0x18#8
  | .addI x => encodeI 0xF#4 x 0x1E#8
  | .ldF x => encodeI 0xF#4 x 0x29#8
  | .ldB x => encodeI 0xF#4 x 0x33#8
  | .ldMemVx x => encodeI 0xF#4 x 0x55#8
  | .ldVxMem x => encodeI 0xF#4 x 0x65#8

/-! ### The opcode map as the spec prints it. -/

/-- The mnemonic of the instruction's row in spec/opcode_table.json. -/
def Instr.mnemonic : Instr → String
  | .cls => "CLS"
  | .ret => "RET"
  | .jp _ => "JP"
  | .call _ => "CALL"
  | .seImm _ _ => "SE_IMM"
  | .sneImm _ _ => "SNE_IMM"
  | .seReg _ _ => "SE_REG"
  | .ldImm _ _ => "LD_IMM"
  | .addImm _ _ => "ADD_IMM"
  | .ldReg _ _ => "LD_REG"
  | .or _ _ => "OR"
  | .and _ _ => "AND"
  | .xor _ _ => "XOR"
  | .addReg _ _ => "ADD_REG"
  | .sub _ _ => "SUB"
  | .shr _ _ => "SHR"
  | .subn _ _ => "SUBN"
  | .shl _ _ => "SHL"
  | .sneReg _ _ => "SNE_REG"
  | .ldI _ => "LD_I"
  | .jpV0 _ => "JP_V0"
  | .rnd _ _ => "RND"
  | .drw _ _ _ => "DRW"
  | .skp _ => "SKP"
  | .sknp _ => "SKNP"
  | .ldVxDt _ => "LD_VX_DT"
  | .ldVxK _ => "LD_VX_K"
  | .ldDtVx _ => "LD_DT_VX"
  | .ldStVx _ => "LD_ST_VX"
  | .addI _ => "ADD_I"
  | .ldF _ => "LD_F"
  | .ldB _ => "LD_B"
  | .ldMemVx _ => "LD_MEM_VX"
  | .ldVxMem _ => "LD_VX_MEM"

/-- One row of R75: a word `w` selects it when `w &&& mask = value`. -/
structure OpRow where
  mnemonic : String
  mask : Word
  value : Word
  deriving DecidableEq, Repr

/-- Rows 1 to 9 of R75. -/
def opRowsLow : List OpRow :=
  [⟨"CLS", 0xFFFF#16, 0x00E0#16⟩, ⟨"RET", 0xFFFF#16, 0x00EE#16⟩, ⟨"JP", 0xF000#16, 0x1000#16⟩,
   ⟨"CALL", 0xF000#16, 0x2000#16⟩, ⟨"SE_IMM", 0xF000#16, 0x3000#16⟩, ⟨"SNE_IMM", 0xF000#16, 0x4000#16⟩,
   ⟨"SE_REG", 0xF000#16, 0x5000#16⟩, ⟨"LD_IMM", 0xF000#16, 0x6000#16⟩, ⟨"ADD_IMM", 0xF000#16, 0x7000#16⟩]

/-- Rows 10 to 18 of R75, category 8. -/
def opRowsEight : List OpRow :=
  [⟨"LD_REG", 0xF00F#16, 0x8000#16⟩, ⟨"OR", 0xF00F#16, 0x8001#16⟩, ⟨"AND", 0xF00F#16, 0x8002#16⟩,
   ⟨"XOR", 0xF00F#16, 0x8003#16⟩, ⟨"ADD_REG", 0xF00F#16, 0x8004#16⟩, ⟨"SUB", 0xF00F#16, 0x8005#16⟩,
   ⟨"SHR", 0xF00F#16, 0x8006#16⟩, ⟨"SUBN", 0xF00F#16, 0x8007#16⟩, ⟨"SHL", 0xF00F#16, 0x800E#16⟩]

/-- Rows 19 to 25 of R75. -/
def opRowsHigh : List OpRow :=
  [⟨"SNE_REG", 0xF000#16, 0x9000#16⟩, ⟨"LD_I", 0xF000#16, 0xA000#16⟩, ⟨"JP_V0", 0xF000#16, 0xB000#16⟩,
   ⟨"RND", 0xF000#16, 0xC000#16⟩, ⟨"DRW", 0xF000#16, 0xD000#16⟩, ⟨"SKP", 0xF0FF#16, 0xE09E#16⟩,
   ⟨"SKNP", 0xF0FF#16, 0xE0A1#16⟩]

/-- Rows 26 to 34 of R75, category F. -/
def opRowsF : List OpRow :=
  [⟨"LD_VX_DT", 0xF0FF#16, 0xF007#16⟩, ⟨"LD_VX_K", 0xF0FF#16, 0xF00A#16⟩, ⟨"LD_DT_VX", 0xF0FF#16, 0xF015#16⟩,
   ⟨"LD_ST_VX", 0xF0FF#16, 0xF018#16⟩, ⟨"ADD_I", 0xF0FF#16, 0xF01E#16⟩, ⟨"LD_F", 0xF0FF#16, 0xF029#16⟩,
   ⟨"LD_B", 0xF0FF#16, 0xF033#16⟩, ⟨"LD_MEM_VX", 0xF0FF#16, 0xF055#16⟩, ⟨"LD_VX_MEM", 0xF0FF#16, 0xF065#16⟩]

/-- The 34 rows of R75. -/
def opRows : List OpRow := opRowsLow ++ opRowsEight ++ opRowsHigh ++ opRowsF

/-- The word `w` selects the row `r` (R75). -/
def OpRow.selects (r : OpRow) (w : Word) : Bool := w &&& r.mask == r.value

end Sys2Proof
end

