-- ==== Sys2Proof/Config.lean ====
section
/-! DEFINITION. The parameters of the hardware (spec/00_scope.md R4, the names in capitals) and the free values. A machine
holds its parameters in the field `params` of State, which no operation writes, so that one step function covers every
value of every parameter; the defaults the spec recommends are in Machine/Defaults.lean. -/

namespace Sys2Proof

/-- The font table `FONT`: 16 glyphs of 5 bytes (spec/70_reset_and_hazards.md R202, D24). -/
abbrev Font := Vector (Vector Byte 5) 16

/-- `SHIFT_SRC`: the register SHR and SHL read (spec/41_alu.md R128, D12). -/
inductive ShiftSrc where
  | x
  | y
  deriving DecidableEq, Repr

/-- `KEY_SELECT`: which pressed key wait-for-key reports (spec/44_keypad_timers.md R162, D22). -/
inductive KeySelect where
  /-- The lowest pressed index (the default). -/
  | lowest
  /-- Any pressed index: a free draw among the pressed keys. -/
  | any
  deriving DecidableEq, Repr

/-- The parameters the model takes as arguments (R4). -/
structure Params where
  /-- `FONT` (R202, D24). -/
  font : Font
  /-- `SHIFT_SRC` (R128, R130, D12). -/
  shiftSrc : ShiftSrc
  /-- `KEY_SELECT` (R162, D22). -/
  keySelect : KeySelect
  /-- `STRICT_5_9`: a non-zero low nibble in 5XY_ / 9XY_ decodes to `Unknown` (spec/30_encoding.md R80, D10). -/
  strict59 : Bool
  /-- `REFUSE_VF_DEST`: refuse the five flag-writing ALU forms when `X` = 15 (spec/41_alu.md R133, D13). -/
  refuseVfDest : Bool
  /-- `SOUND_INACTIVE`: the integer the idle sound timer shows (spec/10_state.md R29, D19). -/
  soundInactive : Int
  /-- `CYCLE_HZ`: the configurable rate of the instruction strobe, in strobes a second (D34). It carries no semantics: no
  rule depends on it (spec/60_exceptions.md R181, U18). -/
  cycleHz : Nat
  deriving DecidableEq, Repr

/-- `TIMER_HZ`, fixed, in strobes a second (R4, R221): timing information, no rule depends on it (R181). -/
def Config.timerHz : Nat := 60

/-- FREE VALUE `RND`: the byte the `k`-th draw of the run gives (R131 `draw8()`, R32, D23). No body: nothing constrains
it. Assumption log 2. -/
opaque Config.randomByte : Nat → Byte

/-- FREE VALUE of `KEY_SELECT` = any: the number from which draw `k` picks one of the pressed keys (R162, D22). No body:
nothing constrains it. Assumption log 4. -/
opaque Config.keyDraw : Nat → Nat

end Sys2Proof
end

