-- ==== Sys2Proof/Machine/Defaults.lean ====
section
/-! DEFINITION. The default parameters the spec recommends (spec/00_scope.md R4). -/

namespace Sys2Proof.Machine

/-- Glyphs 0 to 7 of the default font (spec/70_reset_and_hazards.md R202). -/
def glyphsLow : Vector (Vector Byte 5) 8 :=
  #v[#v[0xF0#8, 0x90#8, 0x90#8, 0x90#8, 0xF0#8],
     #v[0x20#8, 0x60#8, 0x20#8, 0x20#8, 0x70#8],
     #v[0xF0#8, 0x10#8, 0xF0#8, 0x80#8, 0xF0#8],
     #v[0xF0#8, 0x10#8, 0xF0#8, 0x10#8, 0xF0#8],
     #v[0x90#8, 0x90#8, 0xF0#8, 0x10#8, 0x10#8],
     #v[0xF0#8, 0x80#8, 0xF0#8, 0x10#8, 0xF0#8],
     #v[0xF0#8, 0x80#8, 0xF0#8, 0x90#8, 0xF0#8],
     #v[0xF0#8, 0x10#8, 0x20#8, 0x40#8, 0x40#8]]

/-- Glyphs 8 to F of the default font (R202). -/
def glyphsHigh : Vector (Vector Byte 5) 8 :=
  #v[#v[0xF0#8, 0x90#8, 0xF0#8, 0x90#8, 0xF0#8],
     #v[0xF0#8, 0x90#8, 0xF0#8, 0x10#8, 0xF0#8],
     #v[0xF0#8, 0x90#8, 0xF0#8, 0x90#8, 0x90#8],
     #v[0xE0#8, 0x90#8, 0xE0#8, 0x90#8, 0xE0#8],
     #v[0xF0#8, 0x80#8, 0x80#8, 0x80#8, 0xF0#8],
     #v[0xE0#8, 0x90#8, 0x90#8, 0x90#8, 0xE0#8],
     #v[0xF0#8, 0x80#8, 0xF0#8, 0x80#8, 0xF0#8],
     #v[0xF0#8, 0x80#8, 0xF0#8, 0x80#8, 0x80#8]]

/-- The default `FONT`: the standard CHIP-8 hexadecimal font (R202, D24). A claim about glyph contents for the default
machine depends on it. Assumption log 5. -/
def defaultFont : Font := glyphsLow ++ glyphsHigh

/-- The defaults of R4: `SHIFT_SRC` = X, `KEY_SELECT` = lowest, `STRICT_5_9` off, `REFUSE_VF_DEST` off,
`SOUND_INACTIVE` = -1 (assumption log 3, 4, 6, 7), and `CYCLE_HZ` = 500, the reference rate (D34). -/
def defaultParams : Params :=
  { font := defaultFont
    shiftSrc := .x
    keySelect := .lowest
    strict59 := false
    refuseVfDest := false
    soundInactive := -1
    cycleHz := 500 }

end Sys2Proof.Machine
end

