-- ==== Sys2Proof/Machine/State.lean ====
section
/-! DEFINITION. The state of the machine, as plain data (spec/10_state.md R20 to R36), the reasons a run stops, and the
state after reset. -/

namespace Sys2Proof.Machine

/-- The cause of a latched fault (spec/60_exceptions.md R170) with the information recorded. Taking a fault is a NEXT
state whose latch `State.fault` holds the cause and the address of the faulting instruction (R171; assumption log 1), so
no step of this machine answers `Outcome.fault`. All six are safe: the run is over, and no value is invented. -/
inductive Fault where
  /-- Code 1: `STEP` fetched a word that is none of the 34 instructions (R110). Safe. -/
  | illegalInstruction (w : Word)
  /-- Code 2: CALL with `SP` = 16 (R104, D4). Safe. -/
  | stackOverflow
  /-- Code 3: RET with `SP` = 0 (R102, D4). Safe. -/
  | stackUnderflow
  /-- Code 4: `STEP` with `PC` > 4094 (R100, D6). Safe. -/
  | fetchOutOfRange (pc : Word)
  /-- Code 5: DRW, LD B, LD [I], LD Vx,[I] whose highest address `addr` is above 4095 (R55, D5). Safe. -/
  | memOutOfRange (addr : Nat)
  /-- Code 6: SKP, SKNP with `V[X]` = `k` > 15 (R160, R161, D21). Safe. -/
  | keyIndexOutOfRange (k : Byte)
  deriving DecidableEq, Repr

/-- The operation is not defined in the present state: the model gives it no step (R6). -/
inductive Refusal where
  /-- An instruction without a meaning in this model, by its mnemonic; no arm of `exec` answers it. Safe. -/
  | notModelled (mnemonic : String)
  /-- `STEP`, `TICK`, `SETKEY` or `SAMPLE` before the first `RESET` (R185, R201, D27). Safe. -/
  | beforeReset
  /-- A flag-writing ALU instruction with `X` = 15 under the option `REFUSE_VF_DEST` (R133, U14), which is off by
  default. Safe. -/
  | vfDestination
  /-- `STEP`, `TICK` or `SAMPLE` asked of the coordinator while `run` is `Paused`: it issues none (R180, R185). Safe. -/
  | strobesSuspended
  /-- `RESET` or `START` with a ROM longer than `MAX_ROM` (R203, D25). Safe. -/
  | romTooLong
  /-- `RESTART` with no remembered ROM (R180, D31). Safe. -/
  | noRememberedRom
  /-- `SETKEY` with an index above 15, which violates the host's contract (R178, D21). Safe. -/
  | keyIndexOutsideContract
  deriving DecidableEq, Repr

/-- What the fault latch holds: the cause with its information, and `PC`, the address of the faulting instruction
(R170, R171). -/
structure FaultRecord where
  cause : Fault
  pc : Word
  deriving DecidableEq, Repr

/-- The sound timer `ST` (R29): idle at the sentinel `SOUND_INACTIVE`, or a count 0 to 255; the count 0 means expired
with the trigger not yet fired. -/
inductive SoundTimer where
  | inactive
  | count (n : Byte)
  deriving DecidableEq, Repr

/-- The run-control state (R33). -/
inductive RunState where
  | initial
  | running
  | paused
  deriving DecidableEq, Repr

/-- The bytes of memory that differ from the reset contents, addresses strictly rising (`Memory.wf`, Machine/Ops.lean).
Assumption log 15. -/
abbrev Memory := List Host.Cell

/-- The framebuffer, 32 rows of 64 one-bit cells; bit `x` of row `y` is the cell at column `x`, row `y`, which is
`fb[y*64 + x]` of the spec (R26, R152). Assumption log 14. -/
abbrev Framebuffer := Vector (BitVec 64) 32

/-- All the state there is (R35), the parameters the machine was built with (R4), and the model's own `draws`. -/
structure State where
  /-- `V[0]` to `V[15]`; `V[15]` is VF (R20, R21). -/
  v : Vector Byte 16
  /-- The index register `I`, not masked to 12 bits (R22). -/
  i : Word
  /-- The program counter `PC` (R23). -/
  pc : Word
  /-- `stack[0]` to `stack[15]` (R24). -/
  stack : Vector Word 16
  /-- `SP`, the number of occupied stack entries, 0 to 16 (R24). -/
  sp : Fin 17
  /-- `mem[0]` to `mem[4095]` (R25). -/
  mem : Memory
  /-- The framebuffer `fb` (R26). -/
  fb : Framebuffer
  /-- The keypad latch `key[0]` to `key[15]` (R27). -/
  key : Vector Bool 16
  /-- The delay timer `DT` (R28). -/
  dt : Byte
  /-- The sound timer `ST` (R29). -/
  st : SoundTimer
  /-- The redraw flag (R30). -/
  redraw : Bool
  /-- The fault latch (R31). -/
  fault : Option FaultRecord
  /-- The run-control state `run` (R33). -/
  run : RunState
  /-- The ROM `START` remembers for `RESTART` (R180). -/
  rom : Option (List Byte)
  /-- A `RESET` has completed since power-on: the precondition of R100 and R185. -/
  ready : Bool
  /-- The parameters of R4; no operation writes them. -/
  params : Params
  /-- The model's own counter of free draws (R32, R131; assumption log 2): not a register of the machine. -/
  draws : Nat
  deriving DecidableEq, Repr

/-- The machine right after `RESET` with an empty ROM, as the first `START` after power-on leaves it (R36, R200, R201):
every value is the spec's; `draws` = 0 is a DESIGN CHOICE (assumption log 2), and that `run` is `Running` with the empty
ROM remembered is assumption log 10. -/
def State.reset : State :=
  { v := Vector.replicate 16 0#8
    i := 0#16
    pc := 512#16
    stack := Vector.replicate 16 0#16
    sp := 0
    mem := []
    fb := Vector.replicate 32 0#64
    key := Vector.replicate 16 false
    dt := 0#8
    st := .inactive
    redraw := false
    fault := none
    run := .running
    rom := some []
    ready := true
    params := defaultParams
    draws := 0 }

end Sys2Proof.Machine
end

