-- ==== Sys2Proof/Machine/Ops.lean ====
section
/-! DEFINITION. The named operations over registers, memory, the stack, the framebuffer and the keypad, and raising a
fault. -/

namespace Sys2Proof.Machine

/-- The outcome of one instruction or step. -/
abbrev Result := Host.Outcome State Fault Refusal

/-! ### General registers (spec/10_state.md R20) -/

/-- Reading `V[x]`. -/
def State.reg (s : State) (x : Reg) : Byte := s.v[x.val]

/-- `V[x] <- b`. -/
def State.setReg (s : State) (x : Reg) (b : Byte) : State := { s with v := s.v.set x.val b }

/-! ### The index register and the program counter (R22, R23; spec/40_control_flow.md R101) -/

/-- `I <- a`. -/
def State.setI (s : State) (a : Word) : State := { s with i := a }

/-- `goto`: `PC <- target`, no advance added. -/
def State.goto (s : State) (target : Word) : State := { s with pc := target }

/-- `next`: the default advance. -/
def State.advance (s : State) : State := { s with pc := s.pc + 2#16 }

/-- `skip`: the advance of a skip that is taken. -/
def State.skip (s : State) : State := { s with pc := s.pc + 4#16 }

/-- `skip` if the condition holds, else `next`. -/
def State.skipIf (s : State) (c : Bool) : State := if c then s.skip else s.advance

/-! ### Raising a fault -/

/-- `raise <Fault>(info)` (spec/60_exceptions.md R171): the latch takes the cause and the address of the faulting
instruction; everything else, `PC` included, keeps its value. That `redraw` is 0 is the doing of the `STEP`, which
cleared it before (R100). There is no trap entry and no trap return (R174). -/
def State.raise (s : State) (c : Fault) : State := { s with fault := some { cause := c, pc := s.pc } }

/-- The cause codes of R170 (D3). -/
def Fault.code : Fault → Nat
  | .illegalInstruction _ => 1
  | .stackOverflow => 2
  | .stackUnderflow => 3
  | .fetchOutOfRange _ => 4
  | .memOutOfRange _ => 5
  | .keyIndexOutOfRange _ => 6

/-! ### The stack (R24; R102, R104) -/

/-- `stack[SP] <- PC + 2; SP <- SP + 1; PC <- target`, or `StackOverflow` when the 16 entries are occupied. -/
def State.call (s : State) (target : Word) : State :=
  if h : s.sp.val < 16 then
    { s with stack := s.stack.set s.sp.val (s.pc + 2#16), sp := ⟨s.sp.val + 1, by omega⟩, pc := target }
  else s.raise .stackOverflow

/-- `SP <- SP - 1; PC <- stack[SP]`, the popped entry kept, or `StackUnderflow` when no entry is occupied. -/
def State.ret (s : State) : State :=
  if h : 0 < s.sp.val then
    { s with sp := ⟨s.sp.val - 1, by omega⟩, pc := s.stack[s.sp.val - 1]'(by omega) }
  else s.raise .stackUnderflow

/-! ### Memory (spec/20_memory.md) -/

/-- What an address that the list does not hold reads as: the reset contents, that is the font table in `mem[0..79]`
and 0 elsewhere (R51; spec/70_reset_and_hazards.md R200). Glyph `d` starts at `5*d`. -/
def Memory.background (font : Font) (a : Nat) : Byte :=
  if h : a < 80 then (font[a / 5]'(by omega))[a % 5]'(Nat.mod_lt _ (by decide)) else 0#8

/-- The byte at address `a`. -/
def Memory.read (font : Font) : Memory → Nat → Byte
  | [], a => Memory.background font a
  | (k, c) :: m, a => if k = a then c else Memory.read font m a

/-- Puts the byte of address `a` before `m`, unless it is what an unlisted address reads as. -/
def Memory.put (font : Font) (a : Nat) (b : Byte) (m : Memory) : Memory :=
  if b = Memory.background font a then m else (a, b) :: m

/-- `mem[a] <- b`, keeping the canonical form. -/
def Memory.write (font : Font) : Memory → Nat → Byte → Memory
  | [], a, b => Memory.put font a b []
  | (k, c) :: m, a, b =>
    if a < k then Memory.put font a b ((k, c) :: m)
    else if a = k then Memory.put font a b m
    else (k, c) :: Memory.write font m a b

/-- The bytes `bs` written at ascending addresses from `a` (R53). -/
def Memory.writeBytes (font : Font) : Memory → Nat → List Byte → Memory
  | m, _, [] => m
  | m, a, b :: bs => Memory.writeBytes font (Memory.write font m a b) (a + 1) bs

/-- The canonical form from address `lo` up; the addresses are 0 to 4095 (R50). -/
def Memory.wfFrom (font : Font) : Nat → Memory → Bool
  | _, [] => true
  | lo, (k, c) :: m =>
    decide (lo ≤ k) && decide (k < 4096) && c != Memory.background font k && Memory.wfFrom font (k + 1) m

/-- The canonical form: addresses strictly rising and below 4096, no entry equal to what an unlisted address reads
as. -/
def Memory.wf (font : Font) (m : Memory) : Bool := Memory.wfFrom font 0 m

/-- The cells of bytes laid at ascending addresses from `a`, in canonical form: `RESET`'s copy of the ROM (R203). -/
def Memory.cells (font : Font) : Nat → List Byte → Memory
  | _, [] => []
  | a, b :: bs => Memory.put font a b (Memory.cells font (a + 1) bs)

/-- `mem[a]`, `MemRead(a, 1)` of R57 for an address in range. -/
def State.readByte (s : State) (a : Nat) : Byte := Memory.read s.params.font s.mem a

/-- The bytes `bs` stored at ascending addresses from `a`, `MemWrite` of R57 for a range that is in bounds. -/
def State.storeBytes (s : State) (a : Nat) (bs : List Byte) : State :=
  { s with mem := Memory.writeBytes s.params.font s.mem a bs }

/-- The highest address of an access of `n` bytes from `first`. -/
def lastAddress (first n : Nat) : Nat := first + n - 1

/-- The bounds rule R55: an access of `n` bytes from `first` touches an address above 4095; an access of no bytes never
does. -/
def outOfRange (first n : Nat) : Bool := decide (1 ≤ n ∧ 4095 < lastAddress first n)

/-- A data access of `n` bytes at `I`: the whole range is checked before any byte is touched (R55, R63); `t` is the
state the instruction leaves when the range is in bounds. -/
def State.withData (s : State) (n : Nat) (t : State) : State :=
  if outOfRange s.i.toNat n then s.raise (.memOutOfRange (lastAddress s.i.toNat n)) else t

/-! ### The framebuffer (R26; spec/43_display.md R152) -/

/-- A column number modulo 64 (R152). -/
def wrapX (n : Nat) : Fin 64 := ⟨n % 64, Nat.mod_lt _ (by decide)⟩

/-- A row number modulo 32 (R152). -/
def wrapY (n : Nat) : Fin 32 := ⟨n % 32, Nat.mod_lt _ (by decide)⟩

/-- The cell at column `x`, row `y`. -/
def Framebuffer.cell (fb : Framebuffer) (x : Fin 64) (y : Fin 32) : Bool := fb[y.val].getLsbD x.val

/-- `fb[i]` of the spec, `i` = `y*64 + x` (row-major). -/
def Framebuffer.flat (fb : Framebuffer) (i : Fin 2048) : Bool :=
  fb.cell (wrapX i.val) ⟨i.val / 64, by omega⟩

/-- XOR of one bit onto the cell at column `x`, row `y`. -/
def Framebuffer.xorCell (fb : Framebuffer) (x : Fin 64) (y : Fin 32) (bit : Bool) : Framebuffer :=
  if bit then fb.set y.val (fb[y.val] ^^^ (1#64 <<< x.val)) else fb

/-- All 2048 cells 0. -/
def Framebuffer.clear : Framebuffer := Vector.replicate 32 0#64

/-- The framebuffer and the collision found so far in one draw. -/
structure DrawState where
  fb : Framebuffer
  hit : Bool
  deriving DecidableEq, Repr

/-- One pixel of a draw (R151): XOR the bit onto the cell; a set cell that became unset is a collision. -/
def drawPixel (x : Fin 64) (y : Fin 32) (bit : Bool) (d : DrawState) : DrawState :=
  { fb := d.fb.xorCell x y bit, hit := d.hit || (d.fb.cell x y && bit) }

/-- Bit `7 - col` of a sprite byte: `col` 0 is the most significant bit (R151, R152). -/
def spriteBit (b : Byte) (col : Nat) : Bool := b.getLsbD (7 - col)

/-- Columns 0 to `cols - 1` of one sprite row, in ascending order, at `(x0 + col) mod 64` of screen row `y`. -/
def drawCols (b : Byte) (x0 : Nat) (y : Fin 32) : Nat → DrawState → DrawState
  | 0, d => d
  | col + 1, d => drawPixel (wrapX (x0 + col)) y (spriteBit b col) (drawCols b x0 y col d)

/-- Rows 0 to `rows - 1` of a sprite, in ascending order, at screen row `(y0 + row) mod 32`; `sprite row` is the byte of
that row. -/
def drawRows (sprite : Nat → Byte) (x0 y0 : Nat) : Nat → DrawState → DrawState
  | 0, d => d
  | row + 1, d => drawCols (sprite row) x0 (wrapY (y0 + row)) 8 (drawRows sprite x0 y0 row d)

/-! ### The keypad (R27) -/

/-- `key[k]`. -/
def State.keyDown (s : State) (k : Reg) : Bool := s.key[k.val]

/-- The indices of the keys that are down, ascending. -/
def State.pressedKeys (s : State) : List Reg := (List.finRange 16).filter s.keyDown

end Sys2Proof.Machine
end

