-- ==== Sys2Proof/Machine/Operands.lean ====
section
/-! DEFINITION. The operand forms: what an instruction reads besides a plain register (spec/30_encoding.md R82: no operand
is sign-extended, scaled or shifted). -/

namespace Sys2Proof.Machine

/-- `NNN` written to `PC` or `I`: zero-extended to 16 bits (R82, R103, R140). -/
def addrOperand (nnn : Addr) : Word := nnn.setWidth 16

/-- A register's byte as a 16-bit value, zero-extended (R7). -/
def byteOperand (b : Byte) : Word := b.setWidth 16

/-- The target of JP V0, NNN: `NNN + V[0]`, not reduced modulo 4096 (R109, D28). -/
def jumpRelTarget (s : State) (nnn : Addr) : Word := addrOperand nnn + byteOperand (s.reg 0)

/-- The register SHR and SHL read: `V[X]`, or `V[Y]` if `SHIFT_SRC` = Y (R128, R130, D12). -/
def shiftOperand (s : State) (x y : Reg) : Byte :=
  match s.params.shiftSrc with
  | .x => s.reg x
  | .y => s.reg y

/-- `V[X] * 5` for LD F: the whole byte is multiplied (R142). -/
def fontAddress (b : Byte) : Word := byteOperand b * 5#16

/-- The hundreds, tens and ones digits of a byte (R143). -/
def bcdDigits (b : Byte) : List Byte :=
  [BitVec.ofNat 8 (b.toNat / 100), BitVec.ofNat 8 (b.toNat / 10 % 10), BitVec.ofNat 8 (b.toNat % 10)]

/-- The registers V0 to VX inclusive, in ascending order (R144). -/
def registerList (s : State) (x : Reg) : List Byte := s.v.toList.take (x.val + 1)

/-- The register file with V0 to VX loaded from memory at `I` in ascending order (R145). -/
def loadedRegisters (s : State) (x : Reg) : Vector Byte 16 :=
  Vector.ofFn fun k => if k.val ≤ x.val then s.readByte (s.i.toNat + k.val) else s.v[k.val]

/-- The byte of sprite row `row`, `mem[I + row]` (R151). -/
def spriteRow (s : State) (row : Nat) : Byte := s.readByte (s.i.toNat + row)

/-- `draw8()`: the free byte of this draw (R131, R32). -/
def randomOperand (s : State) : Byte := Config.randomByte s.draws

/-- The next free draw is another one. -/
def State.countDraw (s : State) : State := { s with draws := s.draws + 1 }

/-- The key wait-for-key reports when the keys `k :: ks` are down: the lowest, or any of them by a free draw if
`KEY_SELECT` = any (R162, D22). -/
def selectedKey (s : State) (k : Reg) (ks : List Reg) : Reg :=
  match s.params.keySelect with
  | .lowest => k
  | .any => (k :: ks)[Config.keyDraw s.draws % (ks.length + 1)]'(by
      simpa using Nat.mod_lt (Config.keyDraw s.draws) (Nat.succ_pos ks.length))

/-- Wait-for-key uses up a free draw only where it makes one. -/
def State.countKeyDraw (s : State) : State :=
  match s.params.keySelect with
  | .lowest => s
  | .any => s.countDraw

end Sys2Proof.Machine
end

