-- ==== Sys2Proof/Machine/Flags.lean ====
section
/-! DEFINITION. The flag computations: VF is the only flag (spec/10_state.md R21), and every flag value is 0 or 1. -/

namespace Sys2Proof.Machine

/-- The number of VF. -/
def vf : Reg := 15

/-- A flag as the byte written to VF. -/
def flagByte (f : Bool) : Byte := if f then 1#8 else 0#8

/-- Carry of an addition: the exact sum is above 255 (spec/41_alu.md R126, R132). -/
def carryFlag (a b : Byte) : Bool := decide (255 < a.toNat + b.toNat)

/-- No-borrow of `a - b`: the minuend is at least the subtrahend (R127, R129, R132). -/
def noBorrowFlag (a b : Byte) : Bool := decide (b.toNat ≤ a.toNat)

/-- The bit a shift right shifts out: bit 0 of the value before the shift (R128). -/
def shiftedOutRight (a : Byte) : Bool := a.getLsbD 0

/-- The bit a shift left shifts out: bit 7 of the value before the shift (R130). -/
def shiftedOutLeft (a : Byte) : Bool := a.getLsbD 7

/-- `V[15] <- 1 if f else 0`. -/
def State.setVf (s : State) (f : Bool) : State := s.setReg vf (flagByte f)

/-- The result to `V[x]`, then the flag to VF, then `next`: the flag overwrites the result when `x` = 15 (R133, D13). -/
def State.writeFlagged (s : State) (x : Reg) (result : Byte) (f : Bool) : State :=
  ((s.setReg x result).setVf f).advance

/-- The option `REFUSE_VF_DEST` for the five flag-writing ALU instructions (R133, U14): off, the instruction runs. -/
def refusingVfDest (s : State) (x : Reg) (t : State) : Result :=
  if s.params.refuseVfDest && x == vf then .refused .vfDestination else .next t

end Sys2Proof.Machine
end

