-- ==== Sys2Proof/Machine/Alu.lean ====
section
/-! DEFINITION. Register loads, arithmetic, logic, shifts, random (spec/41_alu.md R120 to R133). All sources are read from
the state before the instruction; arithmetic wraps modulo 256 (R132, R133). -/

namespace Sys2Proof.Machine

/-- LD Vx, NN (R120). -/
def execLdImm (x : Reg) (nn : Byte) (s : State) : Result := .next (s.setReg x nn).advance

/-- ADD Vx, NN (R121): the carry is discarded and VF is not written. -/
def execAddImm (x : Reg) (nn : Byte) (s : State) : Result := .next (s.setReg x (s.reg x + nn)).advance

/-- LD Vx, Vy (R122). -/
def execLdReg (x y : Reg) (s : State) : Result := .next (s.setReg x (s.reg y)).advance

/-- OR Vx, Vy (R123): VF is not written (D14). -/
def execOr (x y : Reg) (s : State) : Result := .next (s.setReg x (s.reg x ||| s.reg y)).advance

/-- AND Vx, Vy (R124): VF is not written (D14). -/
def execAnd (x y : Reg) (s : State) : Result := .next (s.setReg x (s.reg x &&& s.reg y)).advance

/-- XOR Vx, Vy (R125): VF is not written (D14). -/
def execXor (x y : Reg) (s : State) : Result := .next (s.setReg x (s.reg x ^^^ s.reg y)).advance

/-- ADD Vx, Vy (R126). -/
def execAddReg (x y : Reg) (s : State) : Result :=
  refusingVfDest s x (s.writeFlagged x (s.reg x + s.reg y) (carryFlag (s.reg x) (s.reg y)))

/-- SUB Vx, Vy (R127): minuend `V[X]`. -/
def execSub (x y : Reg) (s : State) : Result :=
  refusingVfDest s x (s.writeFlagged x (s.reg x - s.reg y) (noBorrowFlag (s.reg x) (s.reg y)))

/-- SHR Vx (R128). -/
def execShr (x y : Reg) (s : State) : Result :=
  refusingVfDest s x (s.writeFlagged x (shiftOperand s x y >>> 1) (shiftedOutRight (shiftOperand s x y)))

/-- SUBN Vx, Vy (R129): minuend `V[Y]`. -/
def execSubn (x y : Reg) (s : State) : Result :=
  refusingVfDest s x (s.writeFlagged x (s.reg y - s.reg x) (noBorrowFlag (s.reg y) (s.reg x)))

/-- SHL Vx (R130). -/
def execShl (x y : Reg) (s : State) : Result :=
  refusingVfDest s x (s.writeFlagged x (shiftOperand s x y <<< 1) (shiftedOutLeft (shiftOperand s x y)))

/-- RND Vx, NN (R131): the draw is free, and the next execution takes another. -/
def execRnd (x : Reg) (nn : Byte) (s : State) : Result :=
  .next (s.setReg x (randomOperand s &&& nn)).advance.countDraw

end Sys2Proof.Machine
end

