-- ==== Sys2Proof/Machine/Control.lean ====
section
/-! DEFINITION. Control transfer and conditional skips (spec/40_control_flow.md R102 to R109). -/

namespace Sys2Proof.Machine

/-- RET (R102). -/
def execRet (s : State) : Result := .next s.ret

/-- JP NNN (R103). -/
def execJp (nnn : Addr) (s : State) : Result := .next (s.goto (addrOperand nnn))

/-- CALL NNN (R104): the pushed value is the address of the instruction after the call. -/
def execCall (nnn : Addr) (s : State) : Result := .next (s.call (addrOperand nnn))

/-- JP V0, NNN (R109). -/
def execJpV0 (nnn : Addr) (s : State) : Result := .next (s.goto (jumpRelTarget s nnn))

/-- SE Vx, NN (R105). -/
def execSeImm (x : Reg) (nn : Byte) (s : State) : Result := .next (s.skipIf (s.reg x == nn))

/-- SNE Vx, NN (R106). -/
def execSneImm (x : Reg) (nn : Byte) (s : State) : Result := .next (s.skipIf (s.reg x != nn))

/-- SE Vx, Vy (R107). -/
def execSeReg (x y : Reg) (s : State) : Result := .next (s.skipIf (s.reg x == s.reg y))

/-- SNE Vx, Vy (R108). -/
def execSneReg (x y : Reg) (s : State) : Result := .next (s.skipIf (s.reg x != s.reg y))

end Sys2Proof.Machine
end

