-- ==== Sys2Proof/Machine/Display.lean ====
section
/-! DEFINITION. The display instructions and the XOR framebuffer write engine (spec/43_display.md R150 to R152). -/

namespace Sys2Proof.Machine

/-- CLS (R150): `redraw` is set even if the framebuffer was clear. -/
def execCls (s : State) : Result := .next { s with fb := Framebuffer.clear, redraw := true }.advance

/-- The framebuffer and the collision after the `n` sprite rows at `I` are drawn at the coordinates `V[X]`, `V[Y]`. -/
def drawnSprite (x y : Reg) (n : Nat) (s : State) : DrawState :=
  drawRows (spriteRow s) (s.reg x).toNat (s.reg y).toNat n { fb := s.fb, hit := false }

/-- DRW Vx, Vy, N (R151): the coordinates are read before VF is written; VF and `redraw` are always written. -/
def execDrw (x y : Reg) (n : Fin 16) (s : State) : Result :=
  let d := drawnSprite x y n.val s
  .next (s.withData n.val ({ s with fb := d.fb, redraw := true }.setVf d.hit).advance)

end Sys2Proof.Machine
end

