-- ==== Sys2Proof/Machine/IndexMem.lean ====
section
/-! DEFINITION. The index register and memory instructions (spec/42_index_memory.md R140 to R145). `I` is never changed
by an access. -/

namespace Sys2Proof.Machine

/-- LD I, NNN (R140). -/
def execLdI (nnn : Addr) (s : State) : Result := .next (s.setI (addrOperand nnn)).advance

/-- ADD I, Vx (R141): modulo 65536; VF is not written (D16). -/
def execAddI (x : Reg) (s : State) : Result := .next (s.setI (s.i + byteOperand (s.reg x))).advance

/-- LD F, Vx (R142). -/
def execLdF (x : Reg) (s : State) : Result := .next (s.setI (fontAddress (s.reg x))).advance

/-- LD B, Vx (R143). -/
def execLdB (x : Reg) (s : State) : Result :=
  .next (s.withData 3 (s.storeBytes s.i.toNat (bcdDigits (s.reg x))).advance)

/-- LD [I], Vx (R144). -/
def execLdMemVx (x : Reg) (s : State) : Result :=
  .next (s.withData (x.val + 1) (s.storeBytes s.i.toNat (registerList s x)).advance)

/-- LD Vx, [I] (R145). -/
def execLdVxMem (x : Reg) (s : State) : Result :=
  .next (s.withData (x.val + 1) { s with v := loadedRegisters s x }.advance)

end Sys2Proof.Machine
end

