-- ==== Sys2Proof/Machine/KeyTimer.lean ====
section
/-! DEFINITION. Keypad and timer instructions (spec/44_keypad_timers.md R160 to R165). -/

namespace Sys2Proof.Machine

/-- The test of a key skip: the key whose index is the content `k` of a register has the level `level`; an index above
15 raises `KeyIndexOutOfRange` (R160, R161, D21). -/
def State.skipOnKey (s : State) (k : Byte) (level : Bool) : State :=
  if h : k.toNat < 16 then s.skipIf (s.keyDown ⟨k.toNat, h⟩ == level) else s.raise (.keyIndexOutOfRange k)

/-- SKP Vx (R160). -/
def execSkp (x : Reg) (s : State) : Result := .next (s.skipOnKey (s.reg x) true)

/-- SKNP Vx (R161). -/
def execSknp (x : Reg) (s : State) : Result := .next (s.skipOnKey (s.reg x) false)

/-- LD Vx, DT (R163). -/
def execLdVxDt (x : Reg) (s : State) : Result := .next (s.setReg x s.dt).advance

/-- LD Vx, K (R162): `hold` while no key is down, so that the same instruction is fetched again; else the index of a
pressed key is written. -/
def execLdVxK (x : Reg) (s : State) : Result :=
  match s.pressedKeys with
  | [] => .next s
  | k :: ks => .next (s.setReg x (BitVec.ofNat 8 (selectedKey s k ks).val)).advance.countKeyDraw

/-- LD DT, Vx (R164). -/
def execLdDtVx (x : Reg) (s : State) : Result := .next { s with dt := s.reg x }.advance

/-- LD ST, Vx (R165): the timer leaves the sentinel whatever the value. -/
def execLdStVx (x : Reg) (s : State) : Result := .next { s with st := .count (s.reg x) }.advance

end Sys2Proof.Machine
end

