-- ==== Sys2Proof/Machine/Fetch.lean ====
section
/-! DEFINITION. What a `STEP` is about to do: its precondition, the fetch and the decoding (spec/40_control_flow.md R100),
in the order of checks of spec/60_exceptions.md R172. -/

namespace Sys2Proof.Machine

/-- What the next `STEP` does. -/
inductive Action where
  /-- The operation is not defined in this state. -/
  | refuse (r : Refusal)
  /-- A fault is latched: the `STEP` changes nothing (R171). -/
  | idle
  /-- The fetch or the decoding raises a fault. -/
  | raise (c : Fault)
  /-- The decoded instruction runs. -/
  | execute (i : Instr)
  deriving DecidableEq, Repr

/-- `STEP` clears the redraw flag before it fetches (R30, R100). -/
def State.clearRedraw (s : State) : State := { s with redraw := false }

/-- The big-endian word at `mem[PC]`, `mem[PC+1]` (spec/20_memory.md R52; at any parity of `PC`, R54). -/
def State.fetchedWord (s : State) : Word :=
  wordOfBytes (s.readByte s.pc.toNat) (s.readByte (s.pc.toNat + 1))

/-- The decoded word: an instruction, or `Unknown(w)`, which raises `IllegalInstruction` (R110). -/
def decodedAction : Decoded → Action
  | .instr i => .execute i
  | .unknown w => .raise (.illegalInstruction w)

/-- The checks of a `STEP` in order: a `RESET` has completed (R185); no fault is latched (R171); the fetch is in range
(R55); the word is an instruction (R172). -/
def nextAction (s : State) : Action :=
  if s.ready = false then .refuse .beforeReset
  else if s.fault.isSome then .idle
  else if outOfRange s.pc.toNat 2 then .raise (.fetchOutOfRange s.pc)
  else decodedAction (decodeWith s.params.strict59 s.fetchedWord)

/-- The word `w` laid at the address the next fetch reads, where that address is in range; where it is not, at the reset
address 512, to which `PC` then moves. -/
def State.placeWord (s : State) (w : Word) : State :=
  let a : Word := if outOfRange s.pc.toNat 2 then 512#16 else s.pc
  { s with pc := a }.storeBytes a.toNat [highByte w, lowByte w]

end Sys2Proof.Machine
end

