-- ==== Sys2Proof/Machine/Step.lean ====
section
/-! DEFINITION. `STEP` (spec/40_control_flow.md R100): exactly one instruction, fetched, decoded and executed. The other
operations of the core are in Machine/Events.lean. -/

namespace Sys2Proof.Machine

/-- One `STEP`. It is not gated by `run`: the strobe that issues it is (Machine/Events.lean; assumption log 9). -/
def step (s : State) : Host.Outcome State Fault Refusal :=
  match nextAction s with
  | .refuse r => .refused r
  | .idle => .next s
  | .raise c => .next (s.clearRedraw.raise c)
  | .execute i => exec i s.clearRedraw

/-- `s` with the instruction whose bits are `w` stored where the next `STEP` fetches; the latch is empty and the reset
done, as a fetch needs (assumption log 21). -/
def State.withFetchWord (s : State) (nbits w : Nat) : State :=
  { s with fault := none, ready := true }.placeWord (tableWord nbits w)

end Sys2Proof.Machine
end

