-- ==== Sys2Proof/Machine/Disasm.lean ====
section
/-! DEFINITION. Disassembly (spec/30_encoding.md R84, R86): a pure function of a byte buffer, not on the execution path. -/

namespace Sys2Proof.Machine

/-- One hexadecimal digit. -/
def hexDigit (n : Fin 16) : Char :=
  if n.val < 10 then Char.ofNat (48 + n.val) else Char.ofNat (55 + n.val)

/-- The `digits` lowest hexadecimal digits of `n`, the most significant first. -/
def hexDigits : Nat → Nat → List Char
  | 0, _ => []
  | digits + 1, n => hexDigits digits (n / 16) ++ [hexDigit (Fin.ofNat 16 n)]

/-- A hexadecimal number with `0x` (R84). -/
def hexText (digits n : Nat) : String := "0x" ++ String.ofList (hexDigits digits n)

/-- `V0` to `VF` (R84). -/
def regText (x : Reg) : String := "V" ++ String.ofList [hexDigit x]

/-- `mnemonic Vx, Vy`. -/
def textXY (mnemonic : String) (x y : Reg) : String := mnemonic ++ " " ++ regText x ++ ", " ++ regText y

/-- `mnemonic Vx, NN`. -/
def textXNN (mnemonic : String) (x : Reg) (nn : Byte) : String :=
  mnemonic ++ " " ++ regText x ++ ", " ++ hexText 2 nn.toNat

/-- `SHR Vx` and `SHL Vx`, written with `Vy` when the `Y` field is not 0 (R84). -/
def textShift (mnemonic : String) (x y : Reg) : String :=
  if y = 0 then mnemonic ++ " " ++ regText x else textXY mnemonic x y

/-- The sprite height, in decimal as the spec's listings print it. -/
def countText (n : Fin 16) : String :=
  if n.val < 10 then String.ofList [hexDigit n] else "1" ++ String.ofList [hexDigit (Fin.ofNat 16 (n.val - 10))]

/-- The assembler text of an instruction (R75, R84). -/
def assemblerText : Instr → String
  | .cls => "CLS"
  | .ret => "RET"
  | .jp nnn => "JP " ++ hexText 3 nnn.toNat
  | .call nnn => "CALL " ++ hexText 3 nnn.toNat
  | .seImm x nn => textXNN "SE" x nn
  | .sneImm x nn => textXNN "SNE" x nn
  | .seReg x y => textXY "SE" x y
  | .ldImm x nn => textXNN "LD" x nn
  | .addImm x nn => textXNN "ADD" x nn
  | .ldReg x y => textXY "LD" x y
  | .or x y => textXY "OR" x y
  | .and x y => textXY "AND" x y
  | .xor x y => textXY "XOR" x y
  | .addReg x y => textXY "ADD" x y
  | .sub x y => textXY "SUB" x y
  | .shr x y => textShift "SHR" x y
  | .subn x y => textXY "SUBN" x y
  | .shl x y => textShift "SHL" x y
  | .sneReg x y => textXY "SNE" x y
  | .ldI nnn => "LD I, " ++ hexText 3 nnn.toNat
  | .jpV0 nnn => "JP V0, " ++ hexText 3 nnn.toNat
  | .rnd x nn => textXNN "RND" x nn
  | .drw x y n => textXY "DRW" x y ++ ", " ++ countText n
  | .skp x => "SKP " ++ regText x
  | .sknp x => "SKNP " ++ regText x
  | .ldVxDt x => "LD " ++ regText x ++ ", DT"
  | .ldVxK x => "LD " ++ regText x ++ ", K"
  | .ldDtVx x => "LD DT, " ++ regText x
  | .ldStVx x => "LD ST, " ++ regText x
  | .addI x => "ADD I, " ++ regText x
  | .ldF x => "LD F, " ++ regText x
  | .ldB x => "LD B, " ++ regText x
  | .ldMemVx x => "LD [I], " ++ regText x
  | .ldVxMem x => "LD " ++ regText x ++ ", [I]"

/-- One item of the disassembly (R86, C10: four components). -/
structure DisasmItem where
  address : Nat
  rawWord : Word
  decoded : Decoded
  description : String
  deriving DecidableEq, Repr

/-- The description: the assembler text, or `DW 0x....` for `Unknown` (R86). -/
def describe : Decoded → String
  | .instr i => assemblerText i
  | .unknown w => "DW " ++ hexText 4 w.toNat

/-- The item of the word at `address`. -/
def disasmItem (address : Nat) (w : Word) : DisasmItem :=
  { address := address, rawWord := w, decoded := decode w, description := describe (decode w) }

/-- The items of a buffer whose first byte stands at `address`; a trailing odd byte yields none (R86, D30). -/
def disassembleFrom : Nat → List Byte → List DisasmItem
  | address, hi :: lo :: rest => disasmItem address (wordOfBytes hi lo) :: disassembleFrom (address + 2) rest
  | _, _ => []

/-- The disassembly of a byte buffer: item `k` has the address `512 + 2k` (R86). -/
def disassemble (buffer : List Byte) : List DisasmItem := disassembleFrom 512 buffer

end Sys2Proof.Machine
end

