-- ==== Sys2Proof/WellFormed.lean ====
section
/-! DEFINITION. Well-formedness: the checks the types of Instr, Params and ROM do not already carry. Register numbers,
immediates and addresses have the exact width of their fields (spec/30_encoding.md R71), so no instruction can hold one
out of range. -/

namespace Sys2Proof

/-- The five flag-writing ALU instructions (spec/41_alu.md R126 to R130) and their destination. -/
def Instr.flagDest : Instr → Option Reg
  | .addReg x _ => some x
  | .sub x _ => some x
  | .shr x _ => some x
  | .subn x _ => some x
  | .shl x _ => some x
  | _ => none

/-- A machine with parameters `p` accepts `i`: under the option `REFUSE_VF_DEST` the five flag-writing ALU instructions
with `X` = 15 lie outside the model's premises (R133, U14); everything else is accepted. -/
def Instr.wellFormed (p : Params) (i : Instr) : Bool :=
  !(p.refuseVfDest && i.flagDest == some 15)

/-- The sound sentinel is negative: neither 0 nor a count (spec/10_state.md R29, D19). -/
def Params.wellFormed (p : Params) : Bool :=
  decide (p.soundInactive < 0)

/-- The largest ROM `RESET` accepts, `MAX_ROM` = 4096 - 512 bytes (R4, spec/70_reset_and_hazards.md R203, D25). -/
def maxRom : Nat := 3584

/-- A ROM `RESET` accepts (R203). -/
def romFits (rom : List Byte) : Bool :=
  decide (rom.length ≤ maxRom)

end Sys2Proof
end

