-- ==== Sys2Proof/Machine/Events.lean ====
section
/-! DEFINITION. The operations issued from outside the instruction stream and the complete boundary of the core
(spec/60_exceptions.md R176 to R186; spec/70_reset_and_hazards.md R200 to R203). Every operation runs to its end before
the next begins (spec/00_scope.md R5), so any interleaving is a list of operations. -/

namespace Sys2Proof.Machine

/-- The operations of R5 and R184. -/
inductive Op where
  /-- `RESET(rom)` (R200). -/
  | reset (rom : List Byte)
  /-- `STEP`, issued by the instruction strobe (R100). -/
  | step
  /-- `TICK`, issued by the 60 Hz strobe (R176). -/
  | tick
  /-- `SETKEY(index, pressed)`; the host's contract is that the index is 0 to 15 (R178). -/
  | setKey (index : Nat) (pressed : Bool)
  /-- `SAMPLE`, issued by the display-refresh signal (R179). -/
  | sample
  /-- `START(rom)` (R180). -/
  | start (rom : List Byte)
  /-- `RESTART` (R180). -/
  | restart
  /-- `PAUSE` (R180). -/
  | pause
  /-- `RESUME` (R180). -/
  | resume
  deriving DecidableEq, Repr

/-- The outputs of R184, as events of the operation that produces them. -/
inductive Output where
  /-- A copy of the whole framebuffer, published by `SAMPLE` (R179). -/
  | snapshot (fb : Framebuffer)
  /-- The one-shot sound-trigger, with no payload (R177). -/
  | soundTrigger
  /-- The value of `run` after a change (R186). -/
  | lifecycle (run : RunState)
  /-- The run was aborted: the record the latch took in this `STEP` (R171). -/
  | faulted (record : FaultRecord)
  deriving DecidableEq, Repr

/-- The outcome of an operation: the state and the outputs, or a refusal (R6). -/
abbrev OpResult := Host.Outcome (State × List Output) Fault Refusal

/-! ### Reset -/

/-- The memory after `RESET(rom)`: the font table, the ROM from 512, and 0 elsewhere (R200, R202, R203). -/
def resetMemory (font : Font) (rom : List Byte) : Memory := Memory.cells font 512 rom

/-- `RESET(rom)` for a ROM that fits (R200): every piece of engine state takes its reset value, whatever it was; `run`
and the remembered ROM are the coordinator's (R33), the parameters are fixed, and the free draws go on. -/
def State.afterReset (s : State) (rom : List Byte) : State :=
  { s with
    v := Vector.replicate 16 0#8
    i := 0#16
    pc := 512#16
    stack := Vector.replicate 16 0#16
    sp := 0
    mem := resetMemory s.params.font rom
    fb := Framebuffer.clear
    key := Vector.replicate 16 false
    dt := 0#8
    st := .inactive
    redraw := false
    fault := none
    ready := true }

/-! ### Timers -/

/-- The delay timer in a `TICK` (R176, R28). -/
def tickDelay (dt : Byte) : Byte := if dt = 0#8 then dt else dt - 1#8

/-- The sound timer in a `TICK` (R176, C2, D20). -/
def tickSound : SoundTimer → SoundTimer
  | .inactive => .inactive
  | .count n => if n = 0#8 then .inactive else .count (n - 1#8)

/-- The trigger fires in the `TICK` that finds the sound timer at 0 (R176, R177). -/
def soundFires (st : SoundTimer) : Bool := st == .count 0#8

/-- The two timers after a `TICK`, handled independently (R176). -/
def State.ticked (s : State) : State := { s with dt := tickDelay s.dt, st := tickSound s.st }

/-- The integer the sound timer holds, the idle timer at `SOUND_INACTIVE` (R29). -/
def State.soundValue (s : State) : Int :=
  match s.st with
  | .inactive => s.params.soundInactive
  | .count n => n.toNat

/-! ### The operations -/

/-- Precondition of the engine's operations: a `RESET` has completed, else refused; and no fault is latched, else the
operation changes nothing and fires nothing (R171, R185). -/
def State.whenLive (s : State) (k : OpResult) : OpResult :=
  if s.ready = false then .refused .beforeReset
  else if s.fault.isSome then .next (s, [])
  else k

/-- While `run` is `Paused` the coordinator issues no `STEP`, `TICK` or `SAMPLE` (R180, R185; assumption log 9). -/
def State.unlessPaused (s : State) (k : OpResult) : OpResult :=
  match s.run with
  | .paused => .refused .strobesSuspended
  | .initial => k
  | .running => k

/-- The `fault` output of a `STEP` from `s` to `t`: the record, in the `STEP` that latched it (R171, R184). -/
def faultOutput (s t : State) : List Output :=
  match s.fault, t.fault with
  | none, some r => [.faulted r]
  | _, _ => []

/-- `STEP` as an operation (R100). -/
def opStep (s : State) : OpResult :=
  match step s with
  | .next t => .next (t, faultOutput s t)
  | .fault c => .fault c
  | .refused r => .refused r

/-- `TICK` (R176). -/
def opTick (s : State) : OpResult :=
  s.whenLive (.next (s.ticked, if soundFires s.st then [.soundTrigger] else []))

/-- `SETKEY(index, pressed)` (R178): accepted in `Running` and `Paused` alike. -/
def opSetKey (index : Nat) (pressed : Bool) (s : State) : OpResult :=
  if s.ready = false then .refused .beforeReset
  else if h : index < 16 then s.whenLive (.next ({ s with key := s.key.set index pressed }, []))
  else .refused .keyIndexOutsideContract

/-- `SAMPLE` (R179). -/
def opSample (s : State) : OpResult :=
  s.whenLive (if s.redraw then .next ({ s with redraw := false }, [.snapshot s.fb]) else .next (s, []))

/-- `RESET(rom)` (R200, R203): defined in every state; refused for a ROM longer than `MAX_ROM`. It fires no
sound-trigger and publishes nothing. -/
def opReset (rom : List Byte) (s : State) : OpResult :=
  if romFits rom then .next (s.afterReset rom, []) else .refused .romTooLong

/-- The lifecycle notification of a change of `run` (R186). -/
def lifecycleOutput (before after : RunState) : List Output :=
  if before = after then [] else [.lifecycle after]

/-- The state with `run` set, and its notification. -/
def setRun (run : RunState) (s : State) : OpResult :=
  .next ({ s with run := run }, lifecycleOutput s.run run)

/-- `START(rom)` in any state (R180, D31): remember the ROM, `RESET(rom)`, `Running`. -/
def opStart (rom : List Byte) (s : State) : OpResult :=
  if romFits rom then setRun .running { s.afterReset rom with rom := some rom } else .refused .romTooLong

/-- `RESTART` (R180, D31): `START` with the remembered ROM; refused when there is none. -/
def opRestart (s : State) : OpResult :=
  match s.rom with
  | some rom => opStart rom s
  | none => .refused .noRememberedRom

/-- `PAUSE` (R180): from `Running` to `Paused`, else nothing; after a fault no operation but `RESET` changes any state
(R31; assumption log 12). -/
def opPause (s : State) : OpResult :=
  if s.run = .running ∧ s.fault = none then setRun .paused s else .next (s, [])

/-- `RESUME` (R180): from `Paused` to `Running`, else nothing; after a fault as `PAUSE`. -/
def opResume (s : State) : OpResult :=
  if s.run = .paused ∧ s.fault = none then setRun .running s else .next (s, [])

/-- One operation at the boundary of the core (R184). -/
def perform : Op → State → OpResult
  | .reset rom, s => opReset rom s
  | .step, s => s.unlessPaused (opStep s)
  | .tick, s => s.unlessPaused (opTick s)
  | .setKey index pressed, s => opSetKey index pressed s
  | .sample, s => s.unlessPaused (opSample s)
  | .start rom, s => opStart rom s
  | .restart, s => opRestart s
  | .pause, s => opPause s
  | .resume, s => opResume s

/-- Operations in a total order, with the outputs of each in order; a refused operation has no step (R5, R6). -/
def runOps : List Op → State → OpResult
  | [], s => .next (s, [])
  | o :: os, s =>
    match perform o s with
    | .next (t, out) =>
      match runOps os t with
      | .next (u, out') => .next (u, out ++ out')
      | .fault c => .fault c
      | .refused r => .refused r
    | .fault c => .fault c
    | .refused r => .refused r

end Sys2Proof.Machine
end

