-- ==== Sys2Proof/Safety.lean ====
section
/-! DEFINITION. What counts as a safe run, in the terms the claims use. -/

namespace Sys2Proof.Machine

/-- The facts every run keeps, in every state after a `RESET`. -/
structure Live (s : State) : Prop where
  /-- Memory is in canonical form (addresses 0 to 4095, no entry equal to the reset contents). -/
  memory : Memory.wf s.params.font s.mem = true
  /-- `PC` is at most 0x10FE, the highest target of a relative jump (spec/10_state.md R23). -/
  pcBound : s.pc.toNat ≤ 0x10FE
  /-- A stack entry is at most 4096 (spec/40_control_flow.md R102, R104). -/
  stackBound : ∀ j : Fin 16, s.stack[j.val].toNat ≤ 4096
  /-- A latched fault names the address `PC` still holds (spec/60_exceptions.md R171). -/
  faultPc : ∀ r, s.fault = some r → r.pc = s.pc
  /-- With a fault latched the redraw flag is 0 (R171). -/
  faultRedraw : s.fault.isSome = true → s.redraw = false

/-- The invariant of the whole machine, power-on included. -/
structure Inv (s : State) : Prop where
  /-- After the first `RESET` the engine state is as `Live` says. -/
  live : s.ready = true → Live s
  /-- The coordinator leaves `Initial` only by a `START` or `RESTART`, which resets (R180). -/
  started : s.run ≠ .initial → s.ready = true
  /-- A remembered ROM is one `RESET` accepts (R203). -/
  romFits : ∀ r, s.rom = some r → r.length ≤ 3584

/-- The state at power-on: no `RESET` has completed, `run` is `Initial` and no ROM is remembered; the engine state has
any value (spec/70_reset_and_hazards.md R201). -/
def PowerOn (s : State) : Prop := s.ready = false ∧ s.run = .initial ∧ s.rom = none

/-- The states the machine can reach from power-on by operations in any order (spec/00_scope.md R5). -/
inductive Reachable : State → Prop where
  | powerOn (s : State) (h : PowerOn s) : Reachable s
  | perform (s t : State) (o : Op) (out : List Output) (hs : Reachable s) (h : perform o s = .next (t, out)) :
      Reachable t

/-- A run is safe so far: no fault is latched (spec/60_exceptions.md R171: a faulted state is never a successful end
state). -/
def NotFaulted (s : State) : Prop := s.fault = none

/-- The instruction word at `PC`, under the decoder. -/
def decodedHere (s : State) : Decoded := decodeWith s.params.strict59 s.fetchedWord

/-- The program has ended: `PC` addresses a `JP` to itself and no fault is latched (spec/70_reset_and_hazards.md R218,
D32). -/
def Ended (s : State) : Prop :=
  s.fault = none ∧ s.pc.toNat ≤ 4094 ∧ ∃ nnn, decodedHere s = .instr (.jp nnn) ∧ nnn.toNat = s.pc.toNat

end Sys2Proof.Machine
end

