-- ==== Sys2Proof/Certificates/Slice0/Obligations.lean ====
section
/-! DEFINITION. The statements for the provers. Each says in its docstring which rule of the spec it formalises; a rule's
numbers are read as natural numbers, so that the machine's bit vectors are compared with the spec's arithmetic. -/

open Sys2Proof Sys2Proof.Machine

namespace Sys2Proof.Claims

/-- `next` with nothing else changed but the registers: everything but `V` and `PC` is as in `s`, and `PC` is 2 more. -/
def NextWithRegs (s t : State) : Prop := t.pc = s.pc + 2#16 ∧ t = { s with v := t.v, pc := t.pc }

/-- `V[x]` takes `b`, every other register, flag included, and everything else but `PC` is as before; `next`. -/
def WritesReg (s t : State) (x : Reg) (b : Byte) : Prop :=
  t.reg x = b ∧ (∀ r, r ≠ x → t.reg r = s.reg r) ∧ NextWithRegs s t

/-- `V[x]` takes `result` unless `x` is VF, VF takes the flag, every other register and everything else but `PC` is as
before; `next`. -/
def WritesRegThenFlag (s t : State) (x : Reg) (result : Nat) (flag : Prop) : Prop :=
  (x ≠ 15 → (t.reg x).toNat = result) ∧ (flag → t.reg 15 = 1#8) ∧ (¬flag → t.reg 15 = 0#8) ∧
    (∀ r, r ≠ x → r ≠ 15 → t.reg r = s.reg r) ∧ NextWithRegs s t

/-- The state a skip leaves: `PC` 4 more if the condition holds, else 2 more; nothing else changes. -/
def SkipsWhen (s t : State) (c : Prop) : Prop :=
  (c → t.pc = s.pc + 4#16) ∧ (¬c → t.pc = s.pc + 2#16) ∧ t = { s with pc := t.pc }

/-- `s` with a fault latched at `PC`, everything else as it was. -/
def faultedAt (s : State) (c : Fault) : State := { s with fault := some { cause := c, pc := s.pc } }

/-- The access of `n` bytes at `I` touches only addresses 0 to 4095 (R55). -/
def InRange (s : State) (n : Nat) : Prop := n = 0 ∨ s.i.toNat + n - 1 ≤ 4095

/-- The sprite of `n` rows at `I`, drawn at the coordinates held by `V[x]`, `V[y]`, has a 1 bit over the screen cell at
column `cx`, row `cy` (spec/43_display.md R151, R152). -/
def SpriteLit (s : State) (x y : Reg) (n : Nat) (cx : Fin 64) (cy : Fin 32) : Prop :=
  ∃ row col, row < n ∧ col < 8 ∧ cx.val = ((s.reg x).toNat + col) % 64 ∧ cy.val = ((s.reg y).toNat + row) % 32 ∧
    (s.readByte (s.i.toNat + row)).getLsbD (7 - col) = true

/-- The general registers an instruction may write: the destination, and VF where the rule says so (R21, R37). -/
def destinations : Instr → List Reg
  | .ldImm x _ => [x]
  | .addImm x _ => [x]
  | .ldReg x _ => [x]
  | .or x _ => [x]
  | .and x _ => [x]
  | .xor x _ => [x]
  | .addReg x _ => [x, 15]
  | .sub x _ => [x, 15]
  | .shr x _ => [x, 15]
  | .subn x _ => [x, 15]
  | .shl x _ => [x, 15]
  | .rnd x _ => [x]
  | .drw _ _ _ => [15]
  | .ldVxDt x => [x]
  | .ldVxK x => [x]
  | .ldVxMem x => (List.finRange 16).filter fun r => decide (r.val ≤ x.val)
  | _ => []

/-- The PC-update classes of R101. -/
inductive PcClass where
  | goto
  | skip
  | hold
  | next
  deriving DecidableEq, Repr

/-- The class of each instruction (R101). -/
def pcClass : Instr → PcClass
  | .jp _ => .goto
  | .call _ => .goto
  | .ret => .goto
  | .jpV0 _ => .goto
  | .seImm _ _ => .skip
  | .sneImm _ _ => .skip
  | .seReg _ _ => .skip
  | .sneReg _ _ => .skip
  | .skp _ => .skip
  | .sknp _ => .skip
  | .ldVxK _ => .hold
  | _ => .next

/-- An operation other than `RESET`, `START`, `RESTART`. -/
def NoReset : Op → Prop
  | .reset _ => False
  | .start _ => False
  | .restart => False
  | _ => True

end Sys2Proof.Claims

open Sys2Proof.Claims

/-! ### Encoding -/

/-- R71, R72, R75, R82: decoding the canonical word of any instruction gives the instruction back, every operand at every
value, whatever the option `STRICT_5_9`. -/
def Obligations.DecodeOfEncodeIsTheInstruction : Prop :=
  ∀ (strict : Bool) (i : Instr), decodeWith strict (encode i) = .instr i

/-- R75, R80: the canonical word of what a word decodes to is that word, but for the ignored low nibble of categories 5
and 9. -/
def Obligations.EncodeOfDecodeIsTheWord : Prop :=
  ∀ (strict : Bool) (w : Word) (i : Instr), decodeWith strict w = .instr i →
    encode i = if opField w = 0x5#4 ∨ opField w = 0x9#4 then w &&& 0xFFF0#16 else w

/-- R74: the rows of R75 are pairwise disjoint, a word that selects a row decodes to an instruction of that row, and a
word that selects none decodes to `Unknown` carrying the word. -/
def Obligations.DecodeFollowsTheOpcodeRows : Prop :=
  opRows.Pairwise (fun r q => ∀ w, ¬(r.selects w = true ∧ q.selects w = true)) ∧
    (∀ (w : Word) (r : OpRow), r ∈ opRows → r.selects w = true →
      ∃ i, decode w = .instr i ∧ i.mnemonic = r.mnemonic) ∧
    (∀ w : Word, (∀ r ∈ opRows, r.selects w = false) → decode w = .unknown w)

/-- R76, R77, R78, R79, R81: the words that decode to `Unknown` are exactly the listed ones. -/
def Obligations.UnknownWordsAreExactlyTheListed : Prop :=
  ∀ w : Word, decode w = .unknown w ↔
    (opField w = 0x0#4 ∧ w ≠ 0x00E0#16 ∧ w ≠ 0x00EE#16) ∨
    (opField w = 0x8#4 ∧ nField w ∈ [0x8#4, 0x9#4, 0xA#4, 0xB#4, 0xC#4, 0xD#4, 0xF#4]) ∨
    (opField w = 0xE#4 ∧ nnField w ∉ [0x9E#8, 0xA1#8]) ∨
    (opField w = 0xF#4 ∧
      nnField w ∉ [0x07#8, 0x0A#8, 0x15#8, 0x18#8, 0x1E#8, 0x29#8, 0x33#8, 0x55#8, 0x65#8])

/-- R80: in categories 5 and 9 the low nibble is ignored; under `STRICT_5_9` a non-zero one makes the word `Unknown`; the
canonical encodings have it 0. -/
def Obligations.LowNibbleOfFiveAndNineIsIgnored : Prop :=
  (∀ w : Word, opField w = 0x5#4 → decodeWith false w = .instr (.seReg (xField w) (yField w)) ∧
    decodeWith true w = if nField w = 0#4 then .instr (.seReg (xField w) (yField w)) else .unknown w) ∧
  (∀ w : Word, opField w = 0x9#4 → decodeWith false w = .instr (.sneReg (xField w) (yField w)) ∧
    decodeWith true w = if nField w = 0#4 then .instr (.sneReg (xField w) (yField w)) else .unknown w) ∧
  (∀ x y : Reg, nField (encode (.seReg x y)) = 0#4 ∧ nField (encode (.sneReg x y)) = 0#4)

/-- R71, R75: words written out from the spec's encodings decode to the instructions they stand for. -/
def Obligations.SpecWordsDecodeToTheirInstructions : Prop :=
  decode 0x00EE#16 = .instr .ret ∧ decode 0x1ABC#16 = .instr (.jp 0xABC#12) ∧
  decode 0x3A7F#16 = .instr (.seImm 10 0x7F#8) ∧ decode 0x6012#16 = .instr (.ldImm 0 0x12#8) ∧
  decode 0x8AB6#16 = .instr (.shr 10 11) ∧ decode 0xA123#16 = .instr (.ldI 0x123#12) ∧
  decode 0xD125#16 = .instr (.drw 1 2 5) ∧ decode 0xE1A1#16 = .instr (.sknp 1) ∧
  decode 0xF133#16 = .instr (.ldB 1) ∧ decode 0xF118#16 = .instr (.ldStVx 1) ∧
  decode 0x0123#16 = .unknown 0x0123#16

/-! ### The instruction cycle and faults -/

/-- R100: when a `RESET` has completed, no fault is latched and the big-endian word at `PC` decodes to `i`, a `STEP`
clears the redraw flag and executes `i`. At the boundary, while `run` is not `Paused`, the operation `STEP` is `step`, and
its only output is the `fault` output of R184: the record, exactly in the `STEP` that latches it (that the output is an
event of that `STEP` is the model's choice, assumption log 16). -/
def Obligations.StepRunsTheDecodedInstruction : Prop :=
  (∀ (s : State) (i : Instr), s.ready = true → s.fault = none → s.pc.toNat ≤ 4094 →
    decodeWith s.params.strict59 (wordOfBytes (s.readByte s.pc.toNat) (s.readByte (s.pc.toNat + 1))) = .instr i →
    step s = exec i { s with redraw := false }) ∧
  (∀ s t : State, s.run ≠ .paused → step s = .next t →
    perform .step s = .next (t, faultOutput s t) ∧
      (∀ r, faultOutput s t = [.faulted r] ↔ s.fault = none ∧ t.fault = some r) ∧
      ((s.fault ≠ none ∨ t.fault = none) → faultOutput s t = [])) ∧
  ∀ (s : State) (r : Refusal), s.run ≠ .paused → step s = .refused r → perform .step s = .refused r

/-- R100, R110, R171, R172, R185: the checks of a `STEP`, in order; each raised fault latches its cause and `PC` and leaves the rest,
the redraw flag cleared. -/
def Obligations.StepChecksInTheSpecsOrder : Prop :=
  ∀ s : State,
    (s.ready = false → step s = .refused .beforeReset) ∧
    (s.ready = true → s.fault ≠ none → step s = .next s) ∧
    (s.ready = true → s.fault = none → 4094 < s.pc.toNat →
      step s = .next (faultedAt { s with redraw := false } (.fetchOutOfRange s.pc))) ∧
    (s.ready = true → s.fault = none → s.pc.toNat ≤ 4094 → ∀ w,
      decodeWith s.params.strict59 (wordOfBytes (s.readByte s.pc.toNat) (s.readByte (s.pc.toNat + 1))) = .unknown w →
      step s = .next (faultedAt { s with redraw := false } (.illegalInstruction w)))

/-- R171: a `STEP` that raises a fault changes nothing but the latch and the redraw flag, which is 0; the record names the
address of the faulting instruction. -/
def Obligations.RaisedFaultIsPrecise : Prop :=
  ∀ (s t : State) (r : FaultRecord), s.fault = none → step s = .next t → t.fault = some r →
    t = { s with redraw := false, fault := some r } ∧ r.pc = s.pc

/-- R170, R172: the codes of the causes, and an instruction raises a fault exactly under the condition of its row of the
table: CALL with 16 entries, RET with none, a data access past 4095, a key index above 15; no other instruction ever
does. -/
def Obligations.FaultsAreRaisedExactlyByTheTable : Prop :=
  (∀ (w : Word) (a : Nat) (k : Byte), (Fault.illegalInstruction w).code = 1 ∧ Fault.stackOverflow.code = 2 ∧
    Fault.stackUnderflow.code = 3 ∧ (Fault.fetchOutOfRange w).code = 4 ∧ (Fault.memOutOfRange a).code = 5 ∧
    (Fault.keyIndexOutOfRange k).code = 6) ∧
  ∀ (i : Instr) (s t : State), s.fault = none → exec i s = .next t →
    (t.fault ≠ none ↔
      (∃ nnn, i = .call nnn ∧ s.sp.val = 16) ∨ (i = .ret ∧ s.sp.val = 0) ∨
      (∃ x y n, i = .drw x y n ∧ ¬InRange s n.val) ∨ (∃ x, i = .ldB x ∧ ¬InRange s 3) ∨
      (∃ x, (i = .ldMemVx x ∨ i = .ldVxMem x) ∧ ¬InRange s (x.val + 1)) ∨
      (∃ x, (i = .skp x ∨ i = .sknp x) ∧ 15 < (s.reg x).toNat))

/-- R31, R171: while a fault is latched no sequence of operations without `RESET`, `START` or `RESTART` changes any state
or gives any output; `STEP`, `TICK`, `SAMPLE` (unless paused) and `SETKEY` go through to no effect; and a `RESET` clears
the latch. Two points are the model's choice and no rule's: that `PAUSE` and `RESUME` too leave `run` as it is
(assumption log 12; R171 does not name them), and that a `SETKEY` with an index above 15 is refused here as well
(assumption log 13). -/
def Obligations.FaultedMachineIsFrozen : Prop :=
  (∀ (os : List Op) (s t : State) (out : List Output), s.fault ≠ none → (∀ o ∈ os, NoReset o) →
    runOps os s = .next (t, out) → t = s ∧ out = []) ∧
  (∀ s : State, s.ready = true → s.fault ≠ none →
    (s.run ≠ .paused → perform .step s = .next (s, []) ∧ perform .tick s = .next (s, []) ∧
      perform .sample s = .next (s, [])) ∧
    (∀ (k : Fin 16) (p : Bool), perform (.setKey k.val p) s = .next (s, [])) ∧
    (∀ (index : Nat) (p : Bool), 15 < index → perform (.setKey index p) s = .refused .keyIndexOutsideContract) ∧
    (∀ rom : List Byte, rom.length ≤ 3584 → ∃ t, perform (.reset rom) s = .next (t, []) ∧ t.fault = none))

/-- R30, R100: after a `STEP` from a live state the redraw flag is set exactly when the instruction was a clear-screen or
a draw that raised no fault. -/
def Obligations.StepSetsRedrawOnlyForDrawAndClear : Prop :=
  ∀ (s t : State) (i : Instr), s.ready = true → s.fault = none → s.pc.toNat ≤ 4094 →
    decodeWith s.params.strict59 (wordOfBytes (s.readByte s.pc.toNat) (s.readByte (s.pc.toNat + 1))) = .instr i →
    step s = .next t →
    (t.redraw = true ↔ (i = .cls ∨ ∃ x y n, i = .drw x y n) ∧ t.fault = none)

/-- Derived: every `STEP` keeps the invariant of the machine: memory canonical and within 0 to 4095, `PC` at most 0x10FE
(R23), stack entries at most 4096 (R102, R104), a latched fault at the `PC` it was raised at, with `redraw` 0 (R171), a
started coordinator only after a `RESET` (R180), a remembered ROM that fits (R203). -/
def Obligations.StepKeepsTheInvariant : Prop :=
  ∀ s t : State, Inv s → step s = .next t → Inv t

/-- The state after reset meets the invariant. -/
def Obligations.ResetMeetsTheInvariant : Prop := Inv State.reset

/-- Derived: every power-on state meets the invariant and every operation at the boundary keeps it, so every state that
operations in any order (R5) reach from power-on meets it. -/
def Obligations.EveryOperationKeepsTheInvariant : Prop :=
  (∀ s, PowerOn s → Inv s) ∧
    (∀ (s t : State) (o : Op) (out : List Output), Inv s → perform o s = .next (t, out) → Inv t) ∧
    ∀ s, Reachable s → Inv s

/-- The model's convention (assumption log 21): a word placed by `withFetchWord` is the one the next `STEP` runs, and every
byte but the two placed reads as before. -/
def Obligations.PlacedWordIsTheOneStepRuns : Prop :=
  ∀ (s : State) (w : Word) (i : Instr), Memory.wf s.params.font s.mem = true → s.pc.toNat ≤ 4094 →
    decodeWith s.params.strict59 w = .instr i →
    step (s.withFetchWord 16 w.toNat) = exec i { s.withFetchWord 16 w.toNat with redraw := false } ∧
    (s.withFetchWord 16 w.toNat).pc = s.pc ∧
    ∀ a, a ≠ s.pc.toNat → a ≠ s.pc.toNat + 1 → (s.withFetchWord 16 w.toNat).readByte a = s.readByte a

/-! ### Control transfer -/

/-- R103, R109: JP goes to `NNN`, JP V0 to `NNN` plus `V[0]`, unmasked; nothing else changes. -/
def Obligations.JumpsGoToTheirTarget : Prop :=
  ∀ (s : State) (nnn : Addr),
    (∃ t, exec (.jp nnn) s = .next t ∧ t.pc.toNat = nnn.toNat ∧ t = { s with pc := t.pc }) ∧
    (∃ t, exec (.jpV0 nnn) s = .next t ∧ t.pc.toNat = nnn.toNat + (s.reg 0).toNat ∧ t = { s with pc := t.pc })

/-- R104: CALL pushes the address of the next instruction, counts `SP` up and goes to `NNN`; with 16 entries occupied it
raises `StackOverflow`. -/
def Obligations.CallPushesTheReturnAddress : Prop :=
  ∀ (s : State) (nnn : Addr),
    (∀ h : s.sp.val < 16, ∃ t, exec (.call nnn) s = .next t ∧ t.stack[s.sp.val] = s.pc + 2#16 ∧
      (∀ j : Fin 16, j.val ≠ s.sp.val → t.stack[j.val] = s.stack[j.val]) ∧
      t.sp.val = s.sp.val + 1 ∧ t.pc.toNat = nnn.toNat ∧
      t = { s with stack := t.stack, sp := t.sp, pc := t.pc }) ∧
    (s.sp.val = 16 → exec (.call nnn) s = .next (faultedAt s .stackOverflow))

/-- R102: RET counts `SP` down and goes to the entry it pops, which keeps its value; with no entry occupied it raises
`StackUnderflow`. -/
def Obligations.ReturnPopsTheNewestEntry : Prop :=
  ∀ s : State,
    (∀ (k : Nat) (h : s.sp.val = k + 1) (hk : k < 16), ∃ t, exec .ret s = .next t ∧ t.sp.val = k ∧
      t.pc = s.stack[k] ∧ t = { s with sp := t.sp, pc := t.pc }) ∧
    (s.sp.val = 0 → exec .ret s = .next (faultedAt s .stackUnderflow))

/-- R102, R104, C3: a return right after a call continues at the instruction after the call, with `SP` as it was and
nothing but the stale stack entry changed. -/
def Obligations.ReturnAfterCallResumesAfterTheCall : Prop :=
  ∀ (s : State) (nnn : Addr), s.sp.val < 16 →
    ∃ t u, exec (.call nnn) s = .next t ∧ exec .ret t = .next u ∧ u.pc = s.pc + 2#16 ∧
      (∀ j : Fin 16, j.val ≠ s.sp.val → u.stack[j.val] = s.stack[j.val]) ∧
      u = { s with stack := u.stack, pc := u.pc }

/-- R105, R106, R107, R108: the four skip-comparisons. -/
def Obligations.SkipsAddTwoWhenTheirConditionHolds : Prop :=
  ∀ (s : State) (x y : Reg) (nn : Byte),
    (∃ t, exec (.seImm x nn) s = .next t ∧ SkipsWhen s t (s.reg x = nn)) ∧
    (∃ t, exec (.sneImm x nn) s = .next t ∧ SkipsWhen s t (s.reg x ≠ nn)) ∧
    (∃ t, exec (.seReg x y) s = .next t ∧ SkipsWhen s t (s.reg x = s.reg y)) ∧
    (∃ t, exec (.sneReg x y) s = .next t ∧ SkipsWhen s t (s.reg x ≠ s.reg y))

/-! ### Registers and arithmetic -/

/-- R120, R122: LD Vx, NN and LD Vx, Vy write the one register they name. -/
def Obligations.LoadsWriteTheNamedRegister : Prop :=
  ∀ (s : State) (x y : Reg) (nn : Byte),
    (∃ t, exec (.ldImm x nn) s = .next t ∧ WritesReg s t x nn) ∧
    (∃ t, exec (.ldReg x y) s = .next t ∧ WritesReg s t x (s.reg y))

/-- R121: ADD Vx, NN wraps modulo 256 and does not write VF unless VF is its destination. -/
def Obligations.AddImmediateWrapsWithoutFlag : Prop :=
  ∀ (s : State) (x : Reg) (nn : Byte),
    ∃ t, exec (.addImm x nn) s = .next t ∧
      (t.reg x).toNat = ((s.reg x).toNat + nn.toNat) % 256 ∧ WritesReg s t x (t.reg x)

/-- R123, R124, R125: OR, AND, XOR act bit by bit and do not write VF unless VF is the destination. -/
def Obligations.LogicActsBitByBitWithoutFlag : Prop :=
  ∀ (s : State) (x y : Reg),
    (∃ t, exec (.or x y) s = .next t ∧ WritesReg s t x (t.reg x) ∧
      ∀ k, (t.reg x).getLsbD k = ((s.reg x).getLsbD k || (s.reg y).getLsbD k)) ∧
    (∃ t, exec (.and x y) s = .next t ∧ WritesReg s t x (t.reg x) ∧
      ∀ k, (t.reg x).getLsbD k = ((s.reg x).getLsbD k && (s.reg y).getLsbD k)) ∧
    (∃ t, exec (.xor x y) s = .next t ∧ WritesReg s t x (t.reg x) ∧
      ∀ k, (t.reg x).getLsbD k = ((s.reg x).getLsbD k ^^ (s.reg y).getLsbD k))

/-- R126, R133: ADD Vx, Vy: the sum modulo 256 and the carry in VF, the flag written last, where the option
`REFUSE_VF_DEST` does not refuse the form. -/
def Obligations.AddRegisterWrapsAndSetsCarry : Prop :=
  ∀ (s : State) (x y : Reg), (Instr.addReg x y).wellFormed s.params = true →
    ∃ t, exec (.addReg x y) s = .next t ∧
      WritesRegThenFlag s t x (((s.reg x).toNat + (s.reg y).toNat) % 256)
        (255 < (s.reg x).toNat + (s.reg y).toNat)

/-- R127, R129, R132, R133: SUB is `V[X] - V[Y]` and SUBN `V[Y] - V[X]`, modulo 256, with VF the no-borrow flag written
last. -/
def Obligations.SubtractsWrapAndSetNoBorrow : Prop :=
  ∀ (s : State) (x y : Reg),
    ((Instr.sub x y).wellFormed s.params = true → ∃ t, exec (.sub x y) s = .next t ∧
      WritesRegThenFlag s t x ((256 + (s.reg x).toNat - (s.reg y).toNat) % 256)
        ((s.reg y).toNat ≤ (s.reg x).toNat)) ∧
    ((Instr.subn x y).wellFormed s.params = true → ∃ t, exec (.subn x y) s = .next t ∧
      WritesRegThenFlag s t x ((256 + (s.reg y).toNat - (s.reg x).toNat) % 256)
        ((s.reg x).toNat ≤ (s.reg y).toNat))

/-- R128, R130, R133: SHR and SHL shift the source register (`V[X]`, or `V[Y]` if `SHIFT_SRC` = Y) by one into `V[X]`, with
VF the bit shifted out, written last. -/
def Obligations.ShiftsMoveOneBitIntoVf : Prop :=
  ∀ (s : State) (x y : Reg) (a : Nat),
    a = (match s.params.shiftSrc with | .x => (s.reg x).toNat | .y => (s.reg y).toNat) →
    ((Instr.shr x y).wellFormed s.params = true → ∃ t, exec (.shr x y) s = .next t ∧
      WritesRegThenFlag s t x (a / 2) (a % 2 = 1)) ∧
    ((Instr.shl x y).wellFormed s.params = true → ∃ t, exec (.shl x y) s = .next t ∧
      WritesRegThenFlag s t x (a * 2 % 256) (128 ≤ a))

/-- R6, R133: an instruction is refused exactly when the option `REFUSE_VF_DEST` is on and it is one of the five
flag-writing forms with `X` = 15; every other instruction, in every state, answers a next state. -/
def Obligations.OnlyTheVfOptionEverRefuses : Prop :=
  ∀ (s : State) (i : Instr),
    (i.wellFormed s.params = true → ∃ t, exec i s = .next t) ∧
    (i.wellFormed s.params = false → exec i s = .refused .vfDestination) ∧
    (i.wellFormed s.params = false ↔ s.params.refuseVfDest = true ∧
      ∃ y, i = .addReg 15 y ∨ i = .sub 15 y ∨ i = .shr 15 y ∨ i = .subn 15 y ∨ i = .shl 15 y)

/-- R131: RND writes a free byte ANDed with `NN`; the next execution takes another draw. The free byte is the model's
`Config.randomByte` (assumption log 2): the statement holds whatever it is. -/
def Obligations.RandomMasksAFreshDraw : Prop :=
  ∀ (s : State) (x : Reg) (nn : Byte),
    ∃ t, exec (.rnd x nn) s = .next t ∧ t.reg x = Config.randomByte s.draws &&& nn ∧ t.reg x &&& ~~~nn = 0#8 ∧
      (∀ r, r ≠ x → t.reg r = s.reg r) ∧ t.pc = s.pc + 2#16 ∧ t.draws = s.draws + 1 ∧
      t = { s with v := t.v, pc := t.pc, draws := t.draws }

/-! ### The index register and memory -/

/-- R140, R141, R142: LD I is `NNN`, ADD I is `I + V[X]` modulo 65536, LD F is `V[X] * 5`; nothing else changes, VF
included. -/
def Obligations.IndexInstructionsWriteOnlyTheIndex : Prop :=
  ∀ (s : State) (x : Reg) (nnn : Addr),
    (∃ t, exec (.ldI nnn) s = .next t ∧ t.i.toNat = nnn.toNat ∧ t.pc = s.pc + 2#16 ∧
      t = { s with i := t.i, pc := t.pc }) ∧
    (∃ t, exec (.addI x) s = .next t ∧ t.i.toNat = (s.i.toNat + (s.reg x).toNat) % 65536 ∧ t.pc = s.pc + 2#16 ∧
      t = { s with i := t.i, pc := t.pc }) ∧
    (∃ t, exec (.ldF x) s = .next t ∧ t.i.toNat = (s.reg x).toNat * 5 ∧ t.pc = s.pc + 2#16 ∧
      t = { s with i := t.i, pc := t.pc })

/-- R143: LD B stores the three digits at `I`, `I+1`, `I+2`; every other byte reads as before, and nothing else changes.
With `I` > 4093 it raises `MemOutOfRange` and does nothing else. -/
def Obligations.BcdStoresThreeDigits : Prop :=
  ∀ (s : State) (x : Reg),
    (Memory.wf s.params.font s.mem = true → s.i.toNat + 2 ≤ 4095 → ∃ t, exec (.ldB x) s = .next t ∧
      (t.readByte s.i.toNat).toNat = (s.reg x).toNat / 100 ∧
      (t.readByte (s.i.toNat + 1)).toNat = (s.reg x).toNat / 10 % 10 ∧
      (t.readByte (s.i.toNat + 2)).toNat = (s.reg x).toNat % 10 ∧
      (∀ a, (a < s.i.toNat ∨ s.i.toNat + 2 < a) → t.readByte a = s.readByte a) ∧
      t.pc = s.pc + 2#16 ∧ t = { s with mem := t.mem, pc := t.pc }) ∧
    (4095 < s.i.toNat + 2 → exec (.ldB x) s = .next (faultedAt s (.memOutOfRange (s.i.toNat + 2))))

/-- R144: LD [I], Vx stores V0 to VX at ascending addresses from `I`; every other byte reads as before, and nothing else
changes, `I` included. With `I + X` > 4095 it raises `MemOutOfRange` and does nothing else. -/
def Obligations.RegisterDumpStoresV0ToVx : Prop :=
  ∀ (s : State) (x : Reg),
    (Memory.wf s.params.font s.mem = true → s.i.toNat + x.val ≤ 4095 → ∃ t, exec (.ldMemVx x) s = .next t ∧
      (∀ r : Reg, r.val ≤ x.val → t.readByte (s.i.toNat + r.val) = s.reg r) ∧
      (∀ a, (a < s.i.toNat ∨ s.i.toNat + x.val < a) → t.readByte a = s.readByte a) ∧
      t.pc = s.pc + 2#16 ∧ t = { s with mem := t.mem, pc := t.pc }) ∧
    (4095 < s.i.toNat + x.val → exec (.ldMemVx x) s = .next (faultedAt s (.memOutOfRange (s.i.toNat + x.val))))

/-- R145: LD Vx, [I] loads V0 to VX from ascending addresses at `I`; the other registers and everything else stay, `I` and
memory included. With `I + X` > 4095 it raises `MemOutOfRange` and does nothing else. -/
def Obligations.RegisterLoadReadsV0ToVx : Prop :=
  ∀ (s : State) (x : Reg),
    (s.i.toNat + x.val ≤ 4095 → ∃ t, exec (.ldVxMem x) s = .next t ∧
      (∀ r : Reg, r.val ≤ x.val → t.reg r = s.readByte (s.i.toNat + r.val)) ∧
      (∀ r : Reg, x.val < r.val → t.reg r = s.reg r) ∧ NextWithRegs s t) ∧
    (4095 < s.i.toNat + x.val → exec (.ldVxMem x) s = .next (faultedAt s (.memOutOfRange (s.i.toNat + x.val))))

/-- R144, R145: a register load at the same `I` undoes a register dump, whatever happened to the registers between. -/
def Obligations.LoadAfterDumpRestoresRegisters : Prop :=
  ∀ (s : State) (x : Reg) (v : Vector Byte 16), Memory.wf s.params.font s.mem = true → s.i.toNat + x.val ≤ 4095 →
    ∃ t u, exec (.ldMemVx x) s = .next t ∧ exec (.ldVxMem x) { t with v := v } = .next u ∧
      ∀ r : Reg, r.val ≤ x.val → u.reg r = s.reg r

/-- R60: a store over the bytes after the storing instruction is what the next `STEP` fetches. -/
def Obligations.StoreIsSeenByTheNextFetch : Prop :=
  ∀ (s : State) (x : Reg), Memory.wf s.params.font s.mem = true → s.i = s.pc + 2#16 →
    (1 ≤ x.val → s.i.toNat + x.val ≤ 4095 →
      ∃ t, exec (.ldMemVx x) s = .next t ∧ t.pc = s.i ∧ t.fetchedWord = wordOfBytes (s.reg 0) (s.reg 1)) ∧
    (s.i.toNat + 2 ≤ 4095 →
      ∃ t, exec (.ldB x) s = .next t ∧ t.pc = s.i ∧
        t.fetchedWord.toNat = (s.reg x).toNat / 100 * 256 + (s.reg x).toNat / 10 % 10)

/-! ### The display -/

/-- R150: CLS sets every cell to 0 and the redraw flag; nothing else changes, VF included. -/
def Obligations.ClearScreenZeroesEveryCell : Prop :=
  ∀ s : State, ∃ t, exec .cls s = .next t ∧ (∀ cx cy, t.fb.cell cx cy = false) ∧ t.redraw = true ∧
    t.pc = s.pc + 2#16 ∧ t = { s with fb := t.fb, redraw := t.redraw, pc := t.pc }

/-- R151: DRW XORs the sprite onto the framebuffer, wrapping each pixel, sets VF to the collision flag and the redraw flag,
in range (a draw of no rows always is); nothing else changes, `I` and memory included. With its last row above 4095 it
raises `MemOutOfRange` and does nothing else. -/
def Obligations.DrawXorsTheSpriteAndReportsCollision : Prop :=
  ∀ (s : State) (x y : Reg) (n : Fin 16),
    (InRange s n.val → ∃ t, exec (.drw x y n) s = .next t ∧
      (∀ cx cy, SpriteLit s x y n.val cx cy → t.fb.cell cx cy = !s.fb.cell cx cy) ∧
      (∀ cx cy, ¬SpriteLit s x y n.val cx cy → t.fb.cell cx cy = s.fb.cell cx cy) ∧
      ((∃ cx cy, SpriteLit s x y n.val cx cy ∧ s.fb.cell cx cy = true) → t.reg 15 = 1#8) ∧
      (¬(∃ cx cy, SpriteLit s x y n.val cx cy ∧ s.fb.cell cx cy = true) → t.reg 15 = 0#8) ∧
      (∀ r, r ≠ 15 → t.reg r = s.reg r) ∧ t.redraw = true ∧ t.pc = s.pc + 2#16 ∧
      t = { s with v := t.v, fb := t.fb, redraw := t.redraw, pc := t.pc }) ∧
    (¬InRange s n.val → exec (.drw x y n) s = .next (faultedAt s (.memOutOfRange (s.i.toNat + n.val - 1))))

/-- R151 (f): drawing the same sprite twice at the same place restores the framebuffer, and the second draw reports a
collision exactly when the first one set some cell. VF is not one of the coordinates, which the first draw overwrites. -/
def Obligations.DrawingTwiceRestoresTheFramebuffer : Prop :=
  ∀ (s : State) (x y : Reg) (n : Fin 16), x ≠ 15 → y ≠ 15 → InRange s n.val →
    ∃ t u, exec (.drw x y n) s = .next t ∧ exec (.drw x y n) t = .next u ∧ u.fb = s.fb ∧
      (u.reg 15 = 1#8 ↔ ∃ cx cy, SpriteLit s x y n.val cx cy ∧ s.fb.cell cx cy = false)

/-! ### Keypad and timers -/

/-- R160, R161: SKP skips when the key named by the content of `V[X]` is down, SKNP when it is up; an index above 15
raises `KeyIndexOutOfRange`. -/
def Obligations.KeySkipsTestTheLatch : Prop :=
  ∀ (s : State) (x : Reg),
    (∀ k : Reg, (s.reg x).toNat = k.val →
      (∃ t, exec (.skp x) s = .next t ∧ SkipsWhen s t (s.keyDown k = true)) ∧
      (∃ t, exec (.sknp x) s = .next t ∧ SkipsWhen s t (s.keyDown k = false))) ∧
    (15 < (s.reg x).toNat →
      exec (.skp x) s = .next (faultedAt s (.keyIndexOutOfRange (s.reg x))) ∧
      exec (.sknp x) s = .next (faultedAt s (.keyIndexOutOfRange (s.reg x))))

/-- R162: LD Vx, K changes nothing while no key is down; else it writes the index of a key that is down, the lowest one
under `KEY_SELECT` = lowest, and nothing else changes but `PC` and, where a free draw picked the key, the model's
own count of draws (assumption log 4). -/
def Obligations.WaitForKeyHoldsOrReportsAPressedKey : Prop :=
  ∀ (s : State) (x : Reg),
    ((∀ k, s.keyDown k = false) → exec (.ldVxK x) s = .next s) ∧
    (∀ j, s.keyDown j = true → ∃ t k, exec (.ldVxK x) s = .next t ∧ s.keyDown k = true ∧
      (s.params.keySelect = .lowest → k ≤ j ∧ t.draws = s.draws) ∧
      (t.reg x).toNat = k.val ∧ (∀ r, r ≠ x → t.reg r = s.reg r) ∧ t.pc = s.pc + 2#16 ∧
      t = { s with v := t.v, pc := t.pc, draws := t.draws })

/-- R162, R212: while no key is down, any number of `STEP`s at a wait-for-key leaves the state as it is, the redraw flag
cleared. -/
def Obligations.WaitForKeyPollsUntilAKeyIsDown : Prop :=
  ∀ (s : State) (x : Reg) (k : Nat), s.ready = true → s.fault = none → s.pc.toNat ≤ 4094 →
    decodeWith s.params.strict59 (wordOfBytes (s.readByte s.pc.toNat) (s.readByte (s.pc.toNat + 1))) =
      .instr (.ldVxK x) →
    (∀ j, s.keyDown j = false) →
    Host.Core.run Sys2Proof.core (k + 1) s = .next { s with redraw := false }

/-- R163, R164, R165: the timer instructions move one byte between `V[X]` and a timer; LD ST always leaves the
sentinel. -/
def Obligations.TimerInstructionsMoveOneByte : Prop :=
  ∀ (s : State) (x : Reg),
    (∃ t, exec (.ldVxDt x) s = .next t ∧ WritesReg s t x s.dt) ∧
    (∃ t, exec (.ldDtVx x) s = .next t ∧ t.dt = s.reg x ∧ t.pc = s.pc + 2#16 ∧
      t = { s with dt := t.dt, pc := t.pc }) ∧
    (∃ t, exec (.ldStVx x) s = .next t ∧ t.st = .count (s.reg x) ∧ t.pc = s.pc + 2#16 ∧
      t = { s with st := t.st, pc := t.pc })

/-- R176, R177: a `TICK` counts each timer down by one while it is above 0; the sound timer found at 0 fires the trigger
and goes idle; nothing else changes. -/
def Obligations.TickCountsBothTimers : Prop :=
  ∀ s : State, s.ready = true → s.fault = none → s.run ≠ .paused →
    ∃ t out, perform .tick s = .next (t, out) ∧ t.dt.toNat = s.dt.toNat - 1 ∧
      (∀ n, s.st = .count n → 0 < n.toNat → (∃ m, t.st = .count m ∧ m.toNat = n.toNat - 1) ∧ out = []) ∧
      (s.st = .count 0#8 → t.st = .inactive ∧ out = [.soundTrigger]) ∧
      (s.st = .inactive → t.st = .inactive ∧ out = []) ∧
      t = { s with dt := t.dt, st := t.st }

/-- R165 (c), R176, R215: after the sound timer is set to `n`, with no rewriting, `k` `TICK`s give no trigger for `k ≤ n`
and exactly one for every larger `k`, fired by the `(n+1)`-th; the delay timer stops at 0 (R211). -/
def Obligations.SoundTriggerFiresOnceAfterItsCount : Prop :=
  ∀ (s : State) (n : Byte) (k : Nat), s.ready = true → s.fault = none → s.run ≠ .paused → s.st = .count n →
    ∃ t, runOps (List.replicate k .tick) s = .next (t, if k ≤ n.toNat then [] else [.soundTrigger]) ∧
      (k ≤ n.toNat → ∃ m, t.st = .count m ∧ m.toNat = n.toNat - k) ∧
      (n.toNat < k → t.st = .inactive) ∧ t.dt.toNat = s.dt.toNat - k ∧
      t = { s with dt := t.dt, st := t.st }

/-! ### Rules of the whole machine -/

/-- R21, R37: an instruction changes no general register but its destinations; VF is changed only by the six instructions
that write it as a flag, or as a named destination. -/
def Obligations.OnlyDestinationsChange : Prop :=
  ∀ (i : Instr) (s t : State) (r : Reg), exec i s = .next t → r ∉ destinations i → t.reg r = s.reg r

/-- R37: what each instruction leaves alone: the index register, the stack, memory byte by byte, the framebuffer, the
redraw flag and the timers are changed only by the instructions the table names; the keypad, the run control, the
remembered ROM and the parameters by none. -/
def Obligations.EachInstructionLeavesTheRestAlone : Prop :=
  ∀ (i : Instr) (s t : State), exec i s = .next t →
    ((∀ a, i ≠ .ldI a) → (∀ x, i ≠ .addI x) → (∀ x, i ≠ .ldF x) → t.i = s.i) ∧
    ((∀ a, i ≠ .call a) → t.stack = s.stack) ∧
    ((∀ a, i ≠ .call a) → i ≠ .ret → t.sp = s.sp) ∧
    ((∀ x, i ≠ .ldB x) → (∀ x, i ≠ .ldMemVx x) → ∀ a, t.readByte a = s.readByte a) ∧
    (i ≠ .cls → (∀ x y n, i ≠ .drw x y n) → t.fb = s.fb ∧ t.redraw = s.redraw) ∧
    ((∀ x, i ≠ .ldDtVx x) → t.dt = s.dt) ∧
    ((∀ x, i ≠ .ldStVx x) → t.st = s.st) ∧
    t.key = s.key ∧ t.run = s.run ∧ t.rom = s.rom ∧ t.ready = s.ready ∧ t.params = s.params

/-- R101: an instruction that raises no fault moves `PC` by its class: by 2, by 2 or 4 for a skip, by 0 or 2 for
wait-for-key; only jump, call, return and relative jump set it. One that raises a fault leaves it. -/
def Obligations.ProgramCounterMovesByClass : Prop :=
  ∀ (i : Instr) (s t : State), s.fault = none → exec i s = .next t →
    (t.fault ≠ none → t.pc = s.pc) ∧
    (t.fault = none → pcClass i = .next → t.pc = s.pc + 2#16) ∧
    (t.fault = none → pcClass i = .skip → t.pc = s.pc + 2#16 ∨ t.pc = s.pc + 4#16) ∧
    (pcClass i = .hold → t.pc = s.pc ∨ t.pc = s.pc + 2#16)

/-- R29, R30: no instruction reads the sound timer or the redraw flag: with other values in them it answers the same next
state, but for those two; and each of the two comes out the same where the instruction writes it, and is otherwise the value
it had. Both runs take the same free draws, since the model draws from a counter in the state (assumption log 2, a choice
of the model that RND, and LD Vx, K under `KEY_SELECT` = any, rest on here). -/
def Obligations.NoInstructionReadsSoundTimerOrRedraw : Prop :=
  ∀ (i : Instr) (s t : State) (st : SoundTimer) (redraw : Bool), exec i s = .next t →
    ∃ t', exec i { s with st := st, redraw := redraw } = .next t' ∧
      t' = { t with st := t'.st, redraw := t'.redraw } ∧
      ((∀ x, i ≠ .ldStVx x) → t'.st = st) ∧ (∀ x, i = .ldStVx x → t'.st = t.st) ∧
      (i ≠ .cls → (∀ x y n, i ≠ .drw x y n) → t'.redraw = redraw) ∧ (i = .cls → t'.redraw = t.redraw) ∧
      (∀ x y n, i = .drw x y n →
        (InRange s n.val → t'.redraw = t.redraw) ∧ (¬InRange s n.val → t'.redraw = redraw))

/-- R24: no instruction reads `SP` or a stack entry into a register: with another stack the registers, `I`, memory, the
framebuffer and the timers come out the same. Both runs take the same free draws, since the model draws from a counter in
the state (assumption log 2, a choice of the model that RND, and LD Vx, K under `KEY_SELECT` = any, rest on here). -/
def Obligations.StackIsNotReadable : Prop :=
  ∀ (i : Instr) (s t t' : State) (stack : Vector Word 16) (sp : Fin 17), exec i s = .next t →
    exec i { s with stack := stack, sp := sp } = .next t' →
    t'.v = t.v ∧ t'.i = t.i ∧ t'.mem = t.mem ∧ t'.fb = t.fb ∧ t'.dt = t.dt ∧ t'.st = t.st

/-- R218: a program that has ended, at a `JP` to itself, stays ended: any number of further `STEP`s leaves the state as it
is, the redraw flag cleared. -/
def Obligations.SelfJumpEndsTheRun : Prop :=
  ∀ (s : State) (k : Nat), s.ready = true → Ended s →
    Host.Core.run Sys2Proof.core (k + 1) s = .next { s with redraw := false }

/-! ### The operations at the boundary -/

/-- R178: after a `RESET` and with no fault latched, `SETKEY` writes one flag, running or paused; an index above 15 is
refused. (With a fault latched: `Obligations.FaultedMachineIsFrozen`.) -/
def Obligations.SetKeyWritesOneFlag : Prop :=
  ∀ (s : State) (pressed : Bool), s.ready = true → s.fault = none →
    (∀ k : Reg, ∃ t, perform (.setKey k.val pressed) s = .next (t, []) ∧ t.keyDown k = pressed ∧
      (∀ j, j ≠ k → t.keyDown j = s.keyDown j) ∧ t = { s with key := t.key }) ∧
    (∀ index, 15 < index → perform (.setKey index pressed) s = .refused .keyIndexOutsideContract)

/-- R179: `SAMPLE` publishes a copy of the framebuffer and clears the redraw flag when it is set; else it does nothing. -/
def Obligations.SamplePublishesOnlyWhenRedrawIsSet : Prop :=
  ∀ s : State, s.ready = true → s.fault = none → s.run ≠ .paused →
    (s.redraw = true → perform .sample s = .next ({ s with redraw := false }, [.snapshot s.fb])) ∧
    (s.redraw = false → perform .sample s = .next (s, []))

/-- R173: nothing outside the instruction stream touches the program's state: an operation other than `STEP` and a reset
leaves `PC`, the registers, `I`, the stack, memory, the framebuffer and the fault latch as they are. -/
def Obligations.EventsLeaveTheProgramsStateAlone : Prop :=
  ∀ (o : Op) (s t : State) (out : List Output), NoReset o → o ≠ .step → perform o s = .next (t, out) →
    t.pc = s.pc ∧ t.v = s.v ∧ t.i = s.i ∧ t.stack = s.stack ∧ t.sp = s.sp ∧ t.mem = s.mem ∧ t.fb = s.fb ∧
      t.fault = s.fault ∧ t.rom = s.rom ∧ t.ready = s.ready ∧ t.params = s.params ∧ t.draws = s.draws

/-- R181, R220: no operation depends on the rate of the instruction strobe: with another `CYCLE_HZ` every operation answers
the same next state and the same outputs, but for the parameter itself. Both runs take the same free draws, since the model
draws from a counter in the state (assumption log 2, a choice of the model that `STEP` at an RND, or at an LD Vx, K under
`KEY_SELECT` = any, rests on here). -/
def Obligations.NothingDependsOnTheCycleRate : Prop :=
  ∀ (o : Op) (s t : State) (out : List Output) (hz : Nat), perform o s = .next (t, out) →
    perform o { s with params := { s.params with cycleHz := hz } } =
      .next ({ t with params := { t.params with cycleHz := hz } }, out)

/-- R36, R200, R202, R203: `RESET` of a ROM that fits installs every reset value, whatever the state was; a longer ROM is
refused. -/
def Obligations.ResetInstallsEveryResetValue : Prop :=
  ∀ (s : State) (rom : List Byte),
    (rom.length ≤ 3584 → ∃ t, perform (.reset rom) s = .next (t, []) ∧
      (∀ r, t.reg r = 0#8) ∧ t.i = 0#16 ∧ t.pc = 512#16 ∧ (∀ j : Fin 16, t.stack[j.val] = 0#16) ∧ t.sp = 0 ∧
      (∀ (d : Fin 16) (j : Fin 5), t.readByte (5 * d.val + j.val) = (s.params.font[d.val])[j.val]) ∧
      (∀ a, 80 ≤ a → a < 512 → t.readByte a = 0#8) ∧
      (∀ (j : Nat) (h : j < rom.length), t.readByte (512 + j) = rom[j]) ∧
      (∀ a, 512 + rom.length ≤ a → a < 4096 → t.readByte a = 0#8) ∧
      (∀ cx cy, t.fb.cell cx cy = false) ∧ (∀ k, t.keyDown k = false) ∧ t.dt = 0#8 ∧ t.st = .inactive ∧
      t.redraw = false ∧ t.fault = none ∧ t.ready = true ∧ t.run = s.run) ∧
    (3584 < rom.length → perform (.reset rom) s = .refused .romTooLong)

/-- The state after reset is what `START` of an empty ROM leaves in any state, but for the parameters and the free draws,
which no reset changes (assumption log 2 and 10). -/
def Obligations.ResetStateIsTheImageOfStart : Prop :=
  ∀ s : State, ∃ out, perform (.start []) s =
    .next ({ State.reset with params := s.params, draws := s.draws }, out)

/-- R180, R186: the run-control table: `START` and `RESTART` reset and force `Running`, `PAUSE` and `RESUME` move between
`Running` and `Paused` and are no-ops elsewhere; a change of `run` is notified. That the notification is an event of the
operation, and that a `START` or `RESTART` in `Running` gives none, is the model's choice (assumption log 16). -/
def Obligations.RunControlFollowsTheTable : Prop :=
  ∀ s : State,
    (∀ rom : List Byte, rom.length ≤ 3584 → ∃ u, perform (.reset rom) s = .next (u, []) ∧
      perform (.start rom) s = .next ({ u with run := .running, rom := some rom },
        if s.run = .running then [] else [.lifecycle .running])) ∧
    (∀ rom, s.rom = some rom → perform .restart s = perform (.start rom) s) ∧
    (s.rom = none → perform .restart s = .refused .noRememberedRom) ∧
    (s.fault = none →
      (s.run = .running → perform .pause s = .next ({ s with run := .paused }, [.lifecycle .paused])) ∧
      (s.run ≠ .running → perform .pause s = .next (s, [])) ∧
      (s.run = .paused → perform .resume s = .next ({ s with run := .running }, [.lifecycle .running])) ∧
      (s.run ≠ .paused → perform .resume s = .next (s, [])))

/-- R180, R185: while paused no `STEP`, `TICK` or `SAMPLE` is issued, so pausing and resuming leaves the state as it was.
That one asked for is refused is the model's form of "not issued", a choice of the model (assumption log 9). -/
def Obligations.PausedMachineRunsNoCycle : Prop :=
  ∀ s : State,
    (s.run = .paused → perform .step s = .refused .strobesSuspended ∧ perform .tick s = .refused .strobesSuspended ∧
      perform .sample s = .refused .strobesSuspended) ∧
    (s.run = .running → s.fault = none →
      runOps [.pause, .resume] s = .next (s, [.lifecycle .paused, .lifecycle .running]))

/-- R185, R201: before the first `RESET` the engine's operations are refused, and `RESET` is defined. -/
def Obligations.NothingButResetBeforeTheFirstReset : Prop :=
  ∀ s : State, PowerOn s →
    perform .step s = .refused .beforeReset ∧ perform .tick s = .refused .beforeReset ∧
    perform .sample s = .refused .beforeReset ∧
    (∀ k p, perform (.setKey k p) s = .refused .beforeReset) ∧
    (∀ rom : List Byte, rom.length ≤ 3584 → ∃ t, perform (.reset rom) s = .next (t, []) ∧ t.ready = true)

/-- R86: the disassembly of a buffer has one item for each pair of bytes, at `512 + 2k`, with the big-endian word, its
decoding and its text; a trailing odd byte yields none. -/
def Obligations.DisassemblyListsEveryWord : Prop :=
  ∀ buffer : List Byte, (disassemble buffer).length = buffer.length / 2 ∧
    ∀ (k : Nat) (h : 2 * k + 1 < buffer.length), ∃ w : Word,
      w.toNat = buffer[2 * k].toNat * 256 + buffer[2 * k + 1].toNat ∧
      (disassemble buffer)[k]? = some ⟨512 + 2 * k, w, decode w, describe (decode w)⟩
end

