-- ==== Sys2Proof/Laws/Decode.lean ====
section
/-! SUPPORT. The fields of the words the encoder's formats build (spec/30_encoding.md R71, R72), and of any word. -/

namespace Sys2Proof

/-! ### Fields as natural numbers -/

theorem nibbleAt_toNat (w : Word) (lo : Nat) : (nibbleAt w lo).toNat = w.toNat / 2 ^ lo % 16 := by
  rw [nibbleAt, BitVec.extractLsb'_toNat, Nat.shiftRight_eq_div_pow]

theorem opField_toNat (w : Word) : (opField w).toNat = w.toNat / 4096 % 16 := nibbleAt_toNat w 12

theorem nField_toNat (w : Word) : (nField w).toNat = w.toNat % 16 := by
  rw [nField, nibbleAt_toNat, Nat.pow_zero, Nat.div_one]

theorem nnField_toNat (w : Word) : (nnField w).toNat = w.toNat % 256 := by
  rw [nnField, BitVec.extractLsb'_toNat, Nat.shiftRight_eq_div_pow, Nat.pow_zero, Nat.div_one]

theorem nnnField_toNat (w : Word) : (nnnField w).toNat = w.toNat % 4096 := by
  rw [nnnField, BitVec.extractLsb'_toNat, Nat.shiftRight_eq_div_pow, Nat.pow_zero, Nat.div_one]

theorem xField_val (w : Word) : (xField w).val = w.toNat / 256 % 16 := nibbleAt_toNat w 8

theorem yField_val (w : Word) : (yField w).val = w.toNat / 16 % 16 := nibbleAt_toNat w 4

theorem encodeA_toNat (op : BitVec 4) (nnn : Addr) : (encodeA op nnn).toNat = op.toNat * 4096 + nnn.toNat := by
  rw [encodeA, BitVec.toNat_append, Nat.shiftLeft_eq, Nat.mul_comm, ← Nat.two_pow_add_eq_or_of_lt nnn.isLt]

theorem encodeI_toNat (op : BitVec 4) (x : Reg) (nn : Byte) :
    (encodeI op x nn).toNat = op.toNat * 4096 + x.val * 256 + nn.toNat := by
  have hx : (BitVec.ofNat 4 x.val).toNat = x.val := by
    rw [BitVec.toNat_ofNat]; exact Nat.mod_eq_of_lt x.isLt
  have h1 : (op ++ BitVec.ofNat 4 x.val).toNat = op.toNat * 16 + x.val := by
    rw [BitVec.toNat_append, Nat.shiftLeft_eq, Nat.mul_comm,
      ← Nat.two_pow_add_eq_or_of_lt (BitVec.ofNat 4 x.val).isLt, hx]
  rw [encodeI, BitVec.toNat_append, Nat.shiftLeft_eq, Nat.mul_comm, ← Nat.two_pow_add_eq_or_of_lt nn.isLt, h1]
  omega

theorem encodeR_toNat (op : BitVec 4) (x y : Reg) (n : BitVec 4) :
    (encodeR op x y n).toNat = op.toNat * 4096 + x.val * 256 + y.val * 16 + n.toNat := by
  have hx : ∀ z : Reg, (BitVec.ofNat 4 z.val).toNat = z.val := fun z => by
    rw [BitVec.toNat_ofNat]; exact Nat.mod_eq_of_lt z.isLt
  have h1 : (op ++ BitVec.ofNat 4 x.val).toNat = op.toNat * 16 + x.val := by
    rw [BitVec.toNat_append, Nat.shiftLeft_eq, Nat.mul_comm,
      ← Nat.two_pow_add_eq_or_of_lt (BitVec.ofNat 4 x.val).isLt, hx]
  have h2 : (op ++ BitVec.ofNat 4 x.val ++ BitVec.ofNat 4 y.val).toNat = op.toNat * 256 + x.val * 16 + y.val := by
    rw [BitVec.toNat_append, Nat.shiftLeft_eq, Nat.mul_comm,
      ← Nat.two_pow_add_eq_or_of_lt (BitVec.ofNat 4 y.val).isLt, h1, hx]
    omega
  rw [encodeR, BitVec.toNat_append, Nat.shiftLeft_eq, Nat.mul_comm, ← Nat.two_pow_add_eq_or_of_lt n.isLt, h2]
  omega

/-! ### The fields of the encoder's words -/

@[simp] theorem opField_encodeA (op : BitVec 4) (nnn : Addr) : opField (encodeA op nnn) = op := by
  apply BitVec.eq_of_toNat_eq; rw [opField, nibbleAt_toNat, encodeA_toNat]; omega

@[simp] theorem nnnField_encodeA (op : BitVec 4) (nnn : Addr) : nnnField (encodeA op nnn) = nnn := by
  apply BitVec.eq_of_toNat_eq; rw [nnnField_toNat, encodeA_toNat]; omega

@[simp] theorem opField_encodeI (op : BitVec 4) (x : Reg) (nn : Byte) : opField (encodeI op x nn) = op := by
  apply BitVec.eq_of_toNat_eq; rw [opField, nibbleAt_toNat, encodeI_toNat]; omega

@[simp] theorem xField_encodeI (op : BitVec 4) (x : Reg) (nn : Byte) : xField (encodeI op x nn) = x := by
  apply Fin.ext; rw [xField_val, encodeI_toNat]; omega

@[simp] theorem nnField_encodeI (op : BitVec 4) (x : Reg) (nn : Byte) : nnField (encodeI op x nn) = nn := by
  apply BitVec.eq_of_toNat_eq; rw [nnField_toNat, encodeI_toNat]; omega

@[simp] theorem opField_encodeR (op : BitVec 4) (x y : Reg) (n : BitVec 4) : opField (encodeR op x y n) = op := by
  apply BitVec.eq_of_toNat_eq; rw [opField, nibbleAt_toNat, encodeR_toNat]; omega

@[simp] theorem xField_encodeR (op : BitVec 4) (x y : Reg) (n : BitVec 4) : xField (encodeR op x y n) = x := by
  apply Fin.ext; rw [xField_val, encodeR_toNat]; omega

@[simp] theorem yField_encodeR (op : BitVec 4) (x y : Reg) (n : BitVec 4) : yField (encodeR op x y n) = y := by
  apply Fin.ext; rw [yField_val, encodeR_toNat]; omega

@[simp] theorem nField_encodeR (op : BitVec 4) (x y : Reg) (n : BitVec 4) : nField (encodeR op x y n) = n := by
  apply BitVec.eq_of_toNat_eq; rw [nField, nibbleAt_toNat, encodeR_toNat]; omega

/-! ### The masks of the opcode map (R75) -/

theorem encodeA_and_F000 (op : BitVec 4) (nnn : Addr) : encodeA op nnn &&& 0xF000#16 = op ++ 0x000#12 := by
  change (op ++ nnn) &&& (0xF#4 ++ 0x000#12) = op ++ 0x000#12
  rw [BitVec.and_append]
  congr 1
  · exact BitVec.and_allOnes
  · exact BitVec.and_zero

theorem encodeI_and_F000 (op : BitVec 4) (x : Reg) (nn : Byte) :
    encodeI op x nn &&& 0xF000#16 = op ++ 0x0#4 ++ 0x00#8 := by
  change (op ++ BitVec.ofNat 4 x.val ++ nn) &&& (0xF#4 ++ 0x0#4 ++ 0x00#8) = op ++ 0x0#4 ++ 0x00#8
  rw [BitVec.and_append, BitVec.and_append]
  congr 1
  · congr 1
    · exact BitVec.and_allOnes
    · exact BitVec.and_zero
  · exact BitVec.and_zero

theorem encodeI_and_F0FF (op : BitVec 4) (x : Reg) (nn : Byte) :
    encodeI op x nn &&& 0xF0FF#16 = op ++ 0x0#4 ++ nn := by
  change (op ++ BitVec.ofNat 4 x.val ++ nn) &&& (0xF#4 ++ 0x0#4 ++ 0xFF#8) = op ++ 0x0#4 ++ nn
  rw [BitVec.and_append, BitVec.and_append]
  congr 1
  · congr 1
    · exact BitVec.and_allOnes
    · exact BitVec.and_zero
  · exact BitVec.and_allOnes

theorem encodeR_and_F000 (op : BitVec 4) (x y : Reg) (n : BitVec 4) :
    encodeR op x y n &&& 0xF000#16 = op ++ 0x0#4 ++ 0x0#4 ++ 0x0#4 := by
  change (op ++ BitVec.ofNat 4 x.val ++ BitVec.ofNat 4 y.val ++ n) &&& (0xF#4 ++ 0x0#4 ++ 0x0#4 ++ 0x0#4) =
    op ++ 0x0#4 ++ 0x0#4 ++ 0x0#4
  rw [BitVec.and_append, BitVec.and_append, BitVec.and_append]
  congr 1
  · congr 1
    · congr 1
      · exact BitVec.and_allOnes
      · exact BitVec.and_zero
    · exact BitVec.and_zero
  · exact BitVec.and_zero

theorem encodeR_and_F00F (op : BitVec 4) (x y : Reg) (n : BitVec 4) :
    encodeR op x y n &&& 0xF00F#16 = op ++ 0x0#4 ++ 0x0#4 ++ n := by
  change (op ++ BitVec.ofNat 4 x.val ++ BitVec.ofNat 4 y.val ++ n) &&& (0xF#4 ++ 0x0#4 ++ 0x0#4 ++ 0xF#4) =
    op ++ 0x0#4 ++ 0x0#4 ++ n
  rw [BitVec.and_append, BitVec.and_append, BitVec.and_append]
  congr 1
  · congr 1
    · congr 1
      · exact BitVec.and_allOnes
      · exact BitVec.and_zero
    · exact BitVec.and_zero
  · exact BitVec.and_allOnes

end Sys2Proof
end

