-- ==== Sys2Proof/Laws/Draw.lean ====
section
/-! SUPPORT. What a draw does to the framebuffer, cell by cell, and which collision it finds: one lemma each for a pixel,
a sprite row and a sprite. -/

namespace Sys2Proof.Machine

theorem Framebuffer.cell_xorCell (fb : Framebuffer) (x cx : Fin 64) (y cy : Fin 32) (bit : Bool) :
    (fb.xorCell x y bit).cell cx cy = (fb.cell cx cy ^^ (bit && decide (cx = x) && decide (cy = y))) := by
  cases bit with
  | false => simp [Framebuffer.xorCell]
  | true =>
    by_cases hy : cy = y
    · subst hy
      by_cases hx : cx = x
      · subst hx; simp [Framebuffer.xorCell, Framebuffer.cell]
      · have hx' : cx.val ≠ x.val := fun e => hx (Fin.ext e)
        have hbit : (1#64 <<< x.val).getLsbD cx.val = false := by
          rw [BitVec.getLsbD_shiftLeft, BitVec.getLsbD_one]
          simp; omega
        simp only [Framebuffer.xorCell, Framebuffer.cell, if_true, Vector.getElem_set_self, BitVec.getLsbD_xor, hbit,
          hx, decide_false, Bool.and_false, Bool.false_and, Bool.xor_false]
    · have hy' : y.val ≠ cy.val := fun e => hy (Fin.ext e.symm)
      simp [Framebuffer.xorCell, Framebuffer.cell, hy, hy']

/-- The pixel at screen column `cx` is lit by columns 0 to `cols - 1` of the sprite byte `b` drawn from `x0`. -/
def litCol (b : Byte) (x0 cols : Nat) (cx : Fin 64) : Bool :=
  (List.range cols).any fun col => decide (cx = wrapX (x0 + col)) && spriteBit b col

/-- The pixel at `cx`, `cy` is lit by rows 0 to `rows - 1` of the sprite drawn from `x0`, `y0`. -/
def litRow (sprite : Nat → Byte) (x0 y0 rows : Nat) (cx : Fin 64) (cy : Fin 32) : Bool :=
  (List.range rows).any fun row => decide (cy = wrapY (y0 + row)) && litCol (sprite row) x0 8 cx

theorem litCol_succ (b : Byte) (x0 cols : Nat) (cx : Fin 64) :
    litCol b x0 (cols + 1) cx =
      (litCol b x0 cols cx || (decide (cx = wrapX (x0 + cols)) && spriteBit b cols)) := by
  simp [litCol, List.range_succ, List.any_append]

theorem litRow_succ (sprite : Nat → Byte) (x0 y0 rows : Nat) (cx : Fin 64) (cy : Fin 32) :
    litRow sprite x0 y0 (rows + 1) cx cy =
      (litRow sprite x0 y0 rows cx cy ||
        (decide (cy = wrapY (y0 + rows)) && litCol (sprite rows) x0 8 cx)) := by
  simp [litRow, List.range_succ, List.any_append]

/-- The up to 8 columns of a sprite row are pairwise distinct (R151 (c)). -/
theorem litCol_fresh (b : Byte) (x0 cols : Nat) (h : cols < 64) :
    litCol b x0 cols (wrapX (x0 + cols)) = false := by
  rw [litCol, List.any_eq_false]
  intro col hc
  have hc' := List.mem_range.1 hc
  have : (wrapX (x0 + cols)) ≠ wrapX (x0 + col) := by
    intro e
    have := congrArg Fin.val e
    simp only [wrapX] at this
    omega
  simp [this]

/-- The up to 15 rows of a sprite are pairwise distinct (R151 (c)). -/
theorem litRow_fresh (sprite : Nat → Byte) (x0 y0 rows : Nat) (cx : Fin 64) (h : rows < 32) :
    litRow sprite x0 y0 rows cx (wrapY (y0 + rows)) = false := by
  rw [litRow, List.any_eq_false]
  intro row hr
  have hr' := List.mem_range.1 hr
  have : (wrapY (y0 + rows)) ≠ wrapY (y0 + row) := by
    intro e
    have := congrArg Fin.val e
    simp only [wrapY] at this
    omega
  simp [this]

/-- One sprite row: each cell is XORed with the pixel of the sprite byte over it. -/
theorem drawCols_cell (b : Byte) (x0 : Nat) (y : Fin 32) (d : DrawState) (cx : Fin 64) (cy : Fin 32) :
    ∀ cols, cols ≤ 64 →
      (drawCols b x0 y cols d).fb.cell cx cy = (d.fb.cell cx cy ^^ (decide (cy = y) && litCol b x0 cols cx))
  | 0, _ => by simp [drawCols, litCol]
  | cols + 1, h => by
    rw [drawCols, drawPixel, Framebuffer.cell_xorCell, drawCols_cell b x0 y d cx cy cols (by omega), litCol_succ]
    by_cases hx : cx = wrapX (x0 + cols)
    · rw [hx, litCol_fresh b x0 cols (by omega)]
      cases d.fb.cell (wrapX (x0 + cols)) cy <;> cases spriteBit b cols <;> simp
    · simp [hx]

/-- One sprite row: the collisions found are the lit pixels over cells that were set before the row. -/
theorem drawCols_hit (b : Byte) (x0 : Nat) (y : Fin 32) (d : DrawState) :
    ∀ cols, cols ≤ 64 →
      (drawCols b x0 y cols d).hit =
        (d.hit || (List.range cols).any fun col => d.fb.cell (wrapX (x0 + col)) y && spriteBit b col)
  | 0, _ => by simp [drawCols]
  | cols + 1, h => by
    have fresh := drawCols_cell b x0 y d (wrapX (x0 + cols)) y cols (by omega)
    rw [litCol_fresh b x0 cols (by omega)] at fresh
    rw [drawCols, drawPixel, drawCols_hit b x0 y d cols (by omega), fresh]
    simp [List.range_succ, List.any_append, Bool.or_assoc]

/-- A sprite: each cell is XORed with the pixel of the sprite over it. -/
theorem drawRows_cell (sprite : Nat → Byte) (x0 y0 : Nat) (d : DrawState) (cx : Fin 64) (cy : Fin 32) :
    ∀ rows, rows ≤ 32 →
      (drawRows sprite x0 y0 rows d).fb.cell cx cy = (d.fb.cell cx cy ^^ litRow sprite x0 y0 rows cx cy)
  | 0, _ => by simp [drawRows, litRow]
  | rows + 1, h => by
    rw [drawRows, drawCols_cell _ _ _ _ _ _ 8 (by omega), drawRows_cell sprite x0 y0 d cx cy rows (by omega),
      litRow_succ]
    by_cases hy : cy = wrapY (y0 + rows)
    · rw [hy, litRow_fresh sprite x0 y0 rows cx (by omega)]
      simp
    · simp [hy]

/-- A sprite: the collisions found are the lit pixels over cells that were set before the draw. -/
theorem drawRows_hit (sprite : Nat → Byte) (x0 y0 : Nat) (d : DrawState) :
    ∀ rows, rows ≤ 32 →
      (drawRows sprite x0 y0 rows d).hit =
        (d.hit || (List.range rows).any fun row => (List.range 8).any fun col =>
          d.fb.cell (wrapX (x0 + col)) (wrapY (y0 + row)) && spriteBit (sprite row) col)
  | 0, _ => by simp [drawRows]
  | rows + 1, h => by
    have fresh : ∀ cx, (drawRows sprite x0 y0 rows d).fb.cell cx (wrapY (y0 + rows)) =
        d.fb.cell cx (wrapY (y0 + rows)) := fun cx => by
      rw [drawRows_cell sprite x0 y0 d cx _ rows (by omega), litRow_fresh sprite x0 y0 rows cx (by omega)]
      simp
    rw [drawRows, drawCols_hit _ _ _ _ 8 (by omega), drawRows_hit sprite x0 y0 d rows (by omega)]
    simp only [fresh, List.range_succ (n := rows), List.any_append, List.any_cons, List.any_nil, Bool.or_false,
      Bool.or_assoc]

/-- Two framebuffers with the same cells are the same. -/
theorem Framebuffer.ext_cell {f g : Framebuffer} (h : ∀ cx cy, f.cell cx cy = g.cell cx cy) : f = g := by
  apply Vector.ext
  intro y hy
  apply BitVec.eq_of_getLsbD_eq
  intro x hx
  exact h ⟨x, hx⟩ ⟨y, hy⟩

@[simp] theorem Framebuffer.cell_clear (cx : Fin 64) (cy : Fin 32) : Framebuffer.clear.cell cx cy = false := by
  simp [Framebuffer.clear, Framebuffer.cell]

end Sys2Proof.Machine
end

