-- ==== Sys2Proof/Laws/Memory.lean ====
section
/-! SUPPORT. The laws of memory: the canonical form is kept by every memory operation, a read after a write gives the value
written, and every other address is left alone. -/

namespace Sys2Proof.Machine

theorem Memory.wfFrom_cons (font : Font) (lo k : Nat) (c : Byte) (m : Memory) :
    Memory.wfFrom font lo ((k, c) :: m) = true ↔
      lo ≤ k ∧ k < 4096 ∧ c ≠ Memory.background font k ∧ Memory.wfFrom font (k + 1) m = true := by
  simp only [Memory.wfFrom, Bool.and_eq_true, decide_eq_true_eq, bne_iff_ne, and_assoc]

/-- The canonical form from `hi` up is one from any `lo ≤ hi` up. -/
theorem Memory.wfFrom_mono (font : Font) {lo hi : Nat} (h : lo ≤ hi) :
    ∀ m, Memory.wfFrom font hi m = true → Memory.wfFrom font lo m = true
  | [], _ => rfl
  | (k, c) :: m, w => by
    rw [Memory.wfFrom_cons] at w ⊢
    exact ⟨le_trans h w.1, w.2⟩

/-- An address below the list's first reads as the reset contents. -/
theorem Memory.read_of_lt (font : Font) {a lo : Nat} (h : a < lo) :
    ∀ m, Memory.wfFrom font lo m = true → Memory.read font m a = Memory.background font a
  | [], _ => rfl
  | (k, c) :: m, w => by
    rw [Memory.wfFrom_cons] at w
    have hk : k ≠ a := by omega
    simp only [Memory.read, hk, if_false]
    exact Memory.read_of_lt font (by omega) m w.2.2.2

theorem Memory.put_wfFrom (font : Font) {lo a : Nat} (b : Byte) (m : Memory) (hlo : lo ≤ a) (ha : a < 4096)
    (w : Memory.wfFrom font (a + 1) m = true) : Memory.wfFrom font lo (Memory.put font a b m) = true := by
  unfold Memory.put
  split
  · exact Memory.wfFrom_mono font (by omega) m w
  · exact (Memory.wfFrom_cons ..).2 ⟨hlo, ha, by assumption, w⟩

theorem Memory.read_put_self (font : Font) (a : Nat) (b : Byte) (m : Memory)
    (w : Memory.wfFrom font (a + 1) m = true) : Memory.read font (Memory.put font a b m) a = b := by
  unfold Memory.put
  split
  · rename_i h
    rw [Memory.read_of_lt font (Nat.lt_succ_self a) m w, h]
  · simp [Memory.read]

theorem Memory.read_put_of_ne (font : Font) {a k : Nat} (h : k ≠ a) (b : Byte) (m : Memory) :
    Memory.read font (Memory.put font a b m) k = Memory.read font m k := by
  unfold Memory.put
  split
  · rfl
  · simp [Memory.read, Ne.symm h]

/-- A write keeps the canonical form. -/
theorem Memory.write_wfFrom (font : Font) {a : Nat} (ha : a < 4096) (b : Byte) :
    ∀ {lo} m, lo ≤ a → Memory.wfFrom font lo m = true → Memory.wfFrom font lo (Memory.write font m a b) = true
  | _, [], hlo, _ => Memory.put_wfFrom font b [] hlo ha rfl
  | lo, (k, c) :: m, hlo, w => by
    have w' := (Memory.wfFrom_cons ..).1 w
    unfold Memory.write
    split
    · exact Memory.put_wfFrom font b _ hlo ha ((Memory.wfFrom_cons ..).2 ⟨by omega, w'.2⟩)
    · split
      · rename_i h
        exact Memory.put_wfFrom font b m hlo ha (h ▸ w'.2.2.2)
      · exact (Memory.wfFrom_cons ..).2
          ⟨w'.1, w'.2.1, w'.2.2.1, Memory.write_wfFrom font ha b m (by omega) w'.2.2.2⟩

theorem Memory.write_wf (font : Font) {a : Nat} (ha : a < 4096) (b : Byte) (m : Memory)
    (w : Memory.wf font m = true) : Memory.wf font (Memory.write font m a b) = true :=
  Memory.write_wfFrom font ha b m (Nat.zero_le a) w

/-- A read after a write of the same address gives the byte written. -/
theorem Memory.read_write_self (font : Font) (a : Nat) (b : Byte) :
    ∀ {lo} m, Memory.wfFrom font lo m = true → Memory.read font (Memory.write font m a b) a = b
  | _, [], _ => Memory.read_put_self font a b [] rfl
  | _, (k, c) :: m, w => by
    have w' := (Memory.wfFrom_cons ..).1 w
    unfold Memory.write
    split
    · exact Memory.read_put_self font a b _ ((Memory.wfFrom_cons ..).2 ⟨by omega, w'.2⟩)
    · split
      · rename_i h
        exact Memory.read_put_self font a b m (h ▸ w'.2.2.2)
      · have hk : k ≠ a := by omega
        simp only [Memory.read, hk, if_false]
        exact Memory.read_write_self font a b m w'.2.2.2

/-- A write leaves every other address alone. -/
theorem Memory.read_write_of_ne (font : Font) {a k : Nat} (h : k ≠ a) (b : Byte) :
    ∀ m, Memory.read font (Memory.write font m a b) k = Memory.read font m k
  | [] => Memory.read_put_of_ne font h b []
  | (j, c) :: m => by
    unfold Memory.write
    split
    · exact Memory.read_put_of_ne font h b _
    · split
      · rename_i hj
        rw [Memory.read_put_of_ne font h b m]
        have : j ≠ k := by omega
        simp [Memory.read, this]
      · simp only [Memory.read]
        rw [Memory.read_write_of_ne font h b m]

/-- Bytes written at ascending addresses keep the canonical form. -/
theorem Memory.writeBytes_wf (font : Font) :
    ∀ (bs : List Byte) (a : Nat) (m : Memory), a + bs.length ≤ 4096 → Memory.wf font m = true →
      Memory.wf font (Memory.writeBytes font m a bs) = true
  | [], _, _, _, w => w
  | b :: bs, a, m, h, w => by
    simp only [List.length_cons] at h
    exact Memory.writeBytes_wf font bs (a + 1) _ (by omega) (Memory.write_wf font (by omega) b m w)

/-- An address outside the bytes written reads as before. -/
theorem Memory.read_writeBytes_of_outside (font : Font) :
    ∀ (bs : List Byte) (a k : Nat) (m : Memory), (k < a ∨ a + bs.length ≤ k) →
      Memory.read font (Memory.writeBytes font m a bs) k = Memory.read font m k
  | [], _, _, _, _ => rfl
  | b :: bs, a, k, m, h => by
    simp only [List.length_cons] at h
    rw [Memory.writeBytes, Memory.read_writeBytes_of_outside font bs (a + 1) k _ (by omega),
      Memory.read_write_of_ne font (by omega)]

/-- The byte at offset `j` of the bytes written reads as the `j`-th byte. -/
theorem Memory.read_writeBytes_inside (font : Font) :
    ∀ (bs : List Byte) (a j : Nat) (m : Memory) (h : j < bs.length), a + bs.length ≤ 4096 →
      Memory.wf font m = true → Memory.read font (Memory.writeBytes font m a bs) (a + j) = bs[j]
  | b :: bs, a, j, m, h, ha, w => by
    simp only [List.length_cons] at h ha
    have w' := Memory.write_wf font (a := a) (by omega) b m w
    cases j with
    | zero =>
      rw [Memory.writeBytes, Memory.read_writeBytes_of_outside font bs (a + 1) _ _ (by omega)]
      exact Memory.read_write_self font a b m w
    | succ j =>
      rw [Memory.writeBytes, show a + (j + 1) = a + 1 + j by omega,
        Memory.read_writeBytes_inside font bs (a + 1) j _ (by omega) (by omega) w']
      rfl

/-- The cells of a ROM are in canonical form. -/
theorem Memory.cells_wfFrom (font : Font) :
    ∀ (bs : List Byte) (a : Nat), a + bs.length ≤ 4096 → Memory.wfFrom font a (Memory.cells font a bs) = true
  | [], _, _ => rfl
  | b :: bs, a, h => by
    simp only [List.length_cons] at h
    exact Memory.put_wfFrom font b _ (Nat.le_refl a) (by omega) (Memory.cells_wfFrom font bs (a + 1) (by omega))

theorem Memory.cells_wf (font : Font) (bs : List Byte) (a : Nat) (h : a + bs.length ≤ 4096) :
    Memory.wf font (Memory.cells font a bs) = true :=
  Memory.wfFrom_mono font (Nat.zero_le a) _ (Memory.cells_wfFrom font bs a h)

/-- An address outside a ROM's cells reads as the reset contents. -/
theorem Memory.read_cells_of_outside (font : Font) :
    ∀ (bs : List Byte) (a k : Nat), (k < a ∨ a + bs.length ≤ k) →
      Memory.read font (Memory.cells font a bs) k = Memory.background font k
  | [], _, _, _ => rfl
  | b :: bs, a, k, h => by
    simp only [List.length_cons] at h
    rw [Memory.cells, Memory.read_put_of_ne font (by omega), Memory.read_cells_of_outside font bs (a + 1) k (by omega)]

/-- The byte at offset `j` of a ROM's cells reads as the `j`-th byte. -/
theorem Memory.read_cells_inside (font : Font) :
    ∀ (bs : List Byte) (a j : Nat) (h : j < bs.length), a + bs.length ≤ 4096 →
      Memory.read font (Memory.cells font a bs) (a + j) = bs[j]
  | b :: bs, a, j, h, ha => by
    simp only [List.length_cons] at h ha
    cases j with
    | zero => exact Memory.read_put_self font a b _ (Memory.cells_wfFrom font bs (a + 1) (by omega))
    | succ j =>
      rw [Memory.cells, Memory.read_put_of_ne font (by omega), show a + (j + 1) = a + 1 + j by omega,
        Memory.read_cells_inside font bs (a + 1) j (by omega) (by omega)]
      rfl

/-- The font table as reset leaves it: byte `j` of glyph `d` at address `5*d + j` (R202). -/
theorem Memory.background_glyph (font : Font) (d : Fin 16) (j : Fin 5) :
    Memory.background font (5 * d.val + j.val) = (font[d.val])[j.val] := by
  have h1 : (5 * d.val + j.val) / 5 = d.val := by omega
  have h2 : (5 * d.val + j.val) % 5 = j.val := by omega
  have h3 : 5 * d.val + j.val < 80 := by omega
  simp [Memory.background, h1, h2, h3]

/-- Above the font table the reset contents are 0 (R200). -/
theorem Memory.background_zero (font : Font) {a : Nat} (h : 80 ≤ a) : Memory.background font a = 0#8 := by
  simp [Memory.background, Nat.not_lt.2 h]

end Sys2Proof.Machine
end

