-- ==== Sys2Proof/Laws/State.lean ====
section
/-! SUPPORT. One lemma per field per update of the state, and the accessors `reg`, `readByte`, `keyDown` of each update, so
that no later proof unfolds a record update. -/

namespace Sys2Proof.Machine

variable (s : State)

/-! ### `State.setReg` -/

@[simp] theorem State.setReg_v (x : Reg) (b : Byte) : (s.setReg x b).v = s.v.set x.val b := rfl
@[simp] theorem State.setReg_i (x : Reg) (b : Byte) : (s.setReg x b).i = s.i := rfl
@[simp] theorem State.setReg_pc (x : Reg) (b : Byte) : (s.setReg x b).pc = s.pc := rfl
@[simp] theorem State.setReg_stack (x : Reg) (b : Byte) : (s.setReg x b).stack = s.stack := rfl
@[simp] theorem State.setReg_sp (x : Reg) (b : Byte) : (s.setReg x b).sp = s.sp := rfl
@[simp] theorem State.setReg_mem (x : Reg) (b : Byte) : (s.setReg x b).mem = s.mem := rfl
@[simp] theorem State.setReg_fb (x : Reg) (b : Byte) : (s.setReg x b).fb = s.fb := rfl
@[simp] theorem State.setReg_key (x : Reg) (b : Byte) : (s.setReg x b).key = s.key := rfl
@[simp] theorem State.setReg_dt (x : Reg) (b : Byte) : (s.setReg x b).dt = s.dt := rfl
@[simp] theorem State.setReg_st (x : Reg) (b : Byte) : (s.setReg x b).st = s.st := rfl
@[simp] theorem State.setReg_redraw (x : Reg) (b : Byte) : (s.setReg x b).redraw = s.redraw := rfl
@[simp] theorem State.setReg_fault (x : Reg) (b : Byte) : (s.setReg x b).fault = s.fault := rfl
@[simp] theorem State.setReg_run (x : Reg) (b : Byte) : (s.setReg x b).run = s.run := rfl
@[simp] theorem State.setReg_rom (x : Reg) (b : Byte) : (s.setReg x b).rom = s.rom := rfl
@[simp] theorem State.setReg_ready (x : Reg) (b : Byte) : (s.setReg x b).ready = s.ready := rfl
@[simp] theorem State.setReg_params (x : Reg) (b : Byte) : (s.setReg x b).params = s.params := rfl
@[simp] theorem State.setReg_draws (x : Reg) (b : Byte) : (s.setReg x b).draws = s.draws := rfl
@[simp] theorem State.setReg_readByte (x : Reg) (b : Byte) (k : Nat) : (s.setReg x b).readByte k = s.readByte k := rfl
@[simp] theorem State.setReg_keyDown (x : Reg) (b : Byte) (k : Reg) : (s.setReg x b).keyDown k = s.keyDown k := rfl

/-! ### `State.setI` -/

@[simp] theorem State.setI_v (a : Word) : (s.setI a).v = s.v := rfl
@[simp] theorem State.setI_i (a : Word) : (s.setI a).i = a := rfl
@[simp] theorem State.setI_pc (a : Word) : (s.setI a).pc = s.pc := rfl
@[simp] theorem State.setI_stack (a : Word) : (s.setI a).stack = s.stack := rfl
@[simp] theorem State.setI_sp (a : Word) : (s.setI a).sp = s.sp := rfl
@[simp] theorem State.setI_mem (a : Word) : (s.setI a).mem = s.mem := rfl
@[simp] theorem State.setI_fb (a : Word) : (s.setI a).fb = s.fb := rfl
@[simp] theorem State.setI_key (a : Word) : (s.setI a).key = s.key := rfl
@[simp] theorem State.setI_dt (a : Word) : (s.setI a).dt = s.dt := rfl
@[simp] theorem State.setI_st (a : Word) : (s.setI a).st = s.st := rfl
@[simp] theorem State.setI_redraw (a : Word) : (s.setI a).redraw = s.redraw := rfl
@[simp] theorem State.setI_fault (a : Word) : (s.setI a).fault = s.fault := rfl
@[simp] theorem State.setI_run (a : Word) : (s.setI a).run = s.run := rfl
@[simp] theorem State.setI_rom (a : Word) : (s.setI a).rom = s.rom := rfl
@[simp] theorem State.setI_ready (a : Word) : (s.setI a).ready = s.ready := rfl
@[simp] theorem State.setI_params (a : Word) : (s.setI a).params = s.params := rfl
@[simp] theorem State.setI_draws (a : Word) : (s.setI a).draws = s.draws := rfl
@[simp] theorem State.setI_reg (a : Word) (r : Reg) : (s.setI a).reg r = s.reg r := rfl
@[simp] theorem State.setI_readByte (a : Word) (k : Nat) : (s.setI a).readByte k = s.readByte k := rfl
@[simp] theorem State.setI_keyDown (a : Word) (k : Reg) : (s.setI a).keyDown k = s.keyDown k := rfl

/-! ### `State.goto` -/

@[simp] theorem State.goto_v (a : Word) : (s.goto a).v = s.v := rfl
@[simp] theorem State.goto_i (a : Word) : (s.goto a).i = s.i := rfl
@[simp] theorem State.goto_pc (a : Word) : (s.goto a).pc = a := rfl
@[simp] theorem State.goto_stack (a : Word) : (s.goto a).stack = s.stack := rfl
@[simp] theorem State.goto_sp (a : Word) : (s.goto a).sp = s.sp := rfl
@[simp] theorem State.goto_mem (a : Word) : (s.goto a).mem = s.mem := rfl
@[simp] theorem State.goto_fb (a : Word) : (s.goto a).fb = s.fb := rfl
@[simp] theorem State.goto_key (a : Word) : (s.goto a).key = s.key := rfl
@[simp] theorem State.goto_dt (a : Word) : (s.goto a).dt = s.dt := rfl
@[simp] theorem State.goto_st (a : Word) : (s.goto a).st = s.st := rfl
@[simp] theorem State.goto_redraw (a : Word) : (s.goto a).redraw = s.redraw := rfl
@[simp] theorem State.goto_fault (a : Word) : (s.goto a).fault = s.fault := rfl
@[simp] theorem State.goto_run (a : Word) : (s.goto a).run = s.run := rfl
@[simp] theorem State.goto_rom (a : Word) : (s.goto a).rom = s.rom := rfl
@[simp] theorem State.goto_ready (a : Word) : (s.goto a).ready = s.ready := rfl
@[simp] theorem State.goto_params (a : Word) : (s.goto a).params = s.params := rfl
@[simp] theorem State.goto_draws (a : Word) : (s.goto a).draws = s.draws := rfl
@[simp] theorem State.goto_reg (a : Word) (r : Reg) : (s.goto a).reg r = s.reg r := rfl
@[simp] theorem State.goto_readByte (a : Word) (k : Nat) : (s.goto a).readByte k = s.readByte k := rfl
@[simp] theorem State.goto_keyDown (a : Word) (k : Reg) : (s.goto a).keyDown k = s.keyDown k := rfl

/-! ### `State.advance` -/

@[simp] theorem State.advance_v : (s.advance).v = s.v := rfl
@[simp] theorem State.advance_i : (s.advance).i = s.i := rfl
@[simp] theorem State.advance_pc : (s.advance).pc = s.pc + 2#16 := rfl
@[simp] theorem State.advance_stack : (s.advance).stack = s.stack := rfl
@[simp] theorem State.advance_sp : (s.advance).sp = s.sp := rfl
@[simp] theorem State.advance_mem : (s.advance).mem = s.mem := rfl
@[simp] theorem State.advance_fb : (s.advance).fb = s.fb := rfl
@[simp] theorem State.advance_key : (s.advance).key = s.key := rfl
@[simp] theorem State.advance_dt : (s.advance).dt = s.dt := rfl
@[simp] theorem State.advance_st : (s.advance).st = s.st := rfl
@[simp] theorem State.advance_redraw : (s.advance).redraw = s.redraw := rfl
@[simp] theorem State.advance_fault : (s.advance).fault = s.fault := rfl
@[simp] theorem State.advance_run : (s.advance).run = s.run := rfl
@[simp] theorem State.advance_rom : (s.advance).rom = s.rom := rfl
@[simp] theorem State.advance_ready : (s.advance).ready = s.ready := rfl
@[simp] theorem State.advance_params : (s.advance).params = s.params := rfl
@[simp] theorem State.advance_draws : (s.advance).draws = s.draws := rfl
@[simp] theorem State.advance_reg (r : Reg) : (s.advance).reg r = s.reg r := rfl
@[simp] theorem State.advance_readByte (k : Nat) : (s.advance).readByte k = s.readByte k := rfl
@[simp] theorem State.advance_keyDown (k : Reg) : (s.advance).keyDown k = s.keyDown k := rfl

/-! ### `State.skip` -/

@[simp] theorem State.skip_v : (s.skip).v = s.v := rfl
@[simp] theorem State.skip_i : (s.skip).i = s.i := rfl
@[simp] theorem State.skip_pc : (s.skip).pc = s.pc + 4#16 := rfl
@[simp] theorem State.skip_stack : (s.skip).stack = s.stack := rfl
@[simp] theorem State.skip_sp : (s.skip).sp = s.sp := rfl
@[simp] theorem State.skip_mem : (s.skip).mem = s.mem := rfl
@[simp] theorem State.skip_fb : (s.skip).fb = s.fb := rfl
@[simp] theorem State.skip_key : (s.skip).key = s.key := rfl
@[simp] theorem State.skip_dt : (s.skip).dt = s.dt := rfl
@[simp] theorem State.skip_st : (s.skip).st = s.st := rfl
@[simp] theorem State.skip_redraw : (s.skip).redraw = s.redraw := rfl
@[simp] theorem State.skip_fault : (s.skip).fault = s.fault := rfl
@[simp] theorem State.skip_run : (s.skip).run = s.run := rfl
@[simp] theorem State.skip_rom : (s.skip).rom = s.rom := rfl
@[simp] theorem State.skip_ready : (s.skip).ready = s.ready := rfl
@[simp] theorem State.skip_params : (s.skip).params = s.params := rfl
@[simp] theorem State.skip_draws : (s.skip).draws = s.draws := rfl
@[simp] theorem State.skip_reg (r : Reg) : (s.skip).reg r = s.reg r := rfl
@[simp] theorem State.skip_readByte (k : Nat) : (s.skip).readByte k = s.readByte k := rfl
@[simp] theorem State.skip_keyDown (k : Reg) : (s.skip).keyDown k = s.keyDown k := rfl

/-! ### `State.raise` -/

@[simp] theorem State.raise_v (c : Fault) : (s.raise c).v = s.v := rfl
@[simp] theorem State.raise_i (c : Fault) : (s.raise c).i = s.i := rfl
@[simp] theorem State.raise_pc (c : Fault) : (s.raise c).pc = s.pc := rfl
@[simp] theorem State.raise_stack (c : Fault) : (s.raise c).stack = s.stack := rfl
@[simp] theorem State.raise_sp (c : Fault) : (s.raise c).sp = s.sp := rfl
@[simp] theorem State.raise_mem (c : Fault) : (s.raise c).mem = s.mem := rfl
@[simp] theorem State.raise_fb (c : Fault) : (s.raise c).fb = s.fb := rfl
@[simp] theorem State.raise_key (c : Fault) : (s.raise c).key = s.key := rfl
@[simp] theorem State.raise_dt (c : Fault) : (s.raise c).dt = s.dt := rfl
@[simp] theorem State.raise_st (c : Fault) : (s.raise c).st = s.st := rfl
@[simp] theorem State.raise_redraw (c : Fault) : (s.raise c).redraw = s.redraw := rfl
@[simp] theorem State.raise_fault (c : Fault) : (s.raise c).fault = some { cause := c, pc := s.pc } := rfl
@[simp] theorem State.raise_run (c : Fault) : (s.raise c).run = s.run := rfl
@[simp] theorem State.raise_rom (c : Fault) : (s.raise c).rom = s.rom := rfl
@[simp] theorem State.raise_ready (c : Fault) : (s.raise c).ready = s.ready := rfl
@[simp] theorem State.raise_params (c : Fault) : (s.raise c).params = s.params := rfl
@[simp] theorem State.raise_draws (c : Fault) : (s.raise c).draws = s.draws := rfl
@[simp] theorem State.raise_reg (c : Fault) (r : Reg) : (s.raise c).reg r = s.reg r := rfl
@[simp] theorem State.raise_readByte (c : Fault) (k : Nat) : (s.raise c).readByte k = s.readByte k := rfl
@[simp] theorem State.raise_keyDown (c : Fault) (k : Reg) : (s.raise c).keyDown k = s.keyDown k := rfl

/-! ### `State.storeBytes` -/

@[simp] theorem State.storeBytes_v (a : Nat) (bs : List Byte) : (s.storeBytes a bs).v = s.v := rfl
@[simp] theorem State.storeBytes_i (a : Nat) (bs : List Byte) : (s.storeBytes a bs).i = s.i := rfl
@[simp] theorem State.storeBytes_pc (a : Nat) (bs : List Byte) : (s.storeBytes a bs).pc = s.pc := rfl
@[simp] theorem State.storeBytes_stack (a : Nat) (bs : List Byte) : (s.storeBytes a bs).stack = s.stack := rfl
@[simp] theorem State.storeBytes_sp (a : Nat) (bs : List Byte) : (s.storeBytes a bs).sp = s.sp := rfl
@[simp] theorem State.storeBytes_mem (a : Nat) (bs : List Byte) : (s.storeBytes a bs).mem = Memory.writeBytes s.params.font s.mem a bs := rfl
@[simp] theorem State.storeBytes_fb (a : Nat) (bs : List Byte) : (s.storeBytes a bs).fb = s.fb := rfl
@[simp] theorem State.storeBytes_key (a : Nat) (bs : List Byte) : (s.storeBytes a bs).key = s.key := rfl
@[simp] theorem State.storeBytes_dt (a : Nat) (bs : List Byte) : (s.storeBytes a bs).dt = s.dt := rfl
@[simp] theorem State.storeBytes_st (a : Nat) (bs : List Byte) : (s.storeBytes a bs).st = s.st := rfl
@[simp] theorem State.storeBytes_redraw (a : Nat) (bs : List Byte) : (s.storeBytes a bs).redraw = s.redraw := rfl
@[simp] theorem State.storeBytes_fault (a : Nat) (bs : List Byte) : (s.storeBytes a bs).fault = s.fault := rfl
@[simp] theorem State.storeBytes_run (a : Nat) (bs : List Byte) : (s.storeBytes a bs).run = s.run := rfl
@[simp] theorem State.storeBytes_rom (a : Nat) (bs : List Byte) : (s.storeBytes a bs).rom = s.rom := rfl
@[simp] theorem State.storeBytes_ready (a : Nat) (bs : List Byte) : (s.storeBytes a bs).ready = s.ready := rfl
@[simp] theorem State.storeBytes_params (a : Nat) (bs : List Byte) : (s.storeBytes a bs).params = s.params := rfl
@[simp] theorem State.storeBytes_draws (a : Nat) (bs : List Byte) : (s.storeBytes a bs).draws = s.draws := rfl
@[simp] theorem State.storeBytes_reg (a : Nat) (bs : List Byte) (r : Reg) : (s.storeBytes a bs).reg r = s.reg r := rfl
@[simp] theorem State.storeBytes_keyDown (a : Nat) (bs : List Byte) (k : Reg) : (s.storeBytes a bs).keyDown k = s.keyDown k := rfl

/-! ### `State.setVf` -/

@[simp] theorem State.setVf_v (f : Bool) : (s.setVf f).v = s.v.set vf.val (flagByte f) := rfl
@[simp] theorem State.setVf_i (f : Bool) : (s.setVf f).i = s.i := rfl
@[simp] theorem State.setVf_pc (f : Bool) : (s.setVf f).pc = s.pc := rfl
@[simp] theorem State.setVf_stack (f : Bool) : (s.setVf f).stack = s.stack := rfl
@[simp] theorem State.setVf_sp (f : Bool) : (s.setVf f).sp = s.sp := rfl
@[simp] theorem State.setVf_mem (f : Bool) : (s.setVf f).mem = s.mem := rfl
@[simp] theorem State.setVf_fb (f : Bool) : (s.setVf f).fb = s.fb := rfl
@[simp] theorem State.setVf_key (f : Bool) : (s.setVf f).key = s.key := rfl
@[simp] theorem State.setVf_dt (f : Bool) : (s.setVf f).dt = s.dt := rfl
@[simp] theorem State.setVf_st (f : Bool) : (s.setVf f).st = s.st := rfl
@[simp] theorem State.setVf_redraw (f : Bool) : (s.setVf f).redraw = s.redraw := rfl
@[simp] theorem State.setVf_fault (f : Bool) : (s.setVf f).fault = s.fault := rfl
@[simp] theorem State.setVf_run (f : Bool) : (s.setVf f).run = s.run := rfl
@[simp] theorem State.setVf_rom (f : Bool) : (s.setVf f).rom = s.rom := rfl
@[simp] theorem State.setVf_ready (f : Bool) : (s.setVf f).ready = s.ready := rfl
@[simp] theorem State.setVf_params (f : Bool) : (s.setVf f).params = s.params := rfl
@[simp] theorem State.setVf_draws (f : Bool) : (s.setVf f).draws = s.draws := rfl
@[simp] theorem State.setVf_readByte (f : Bool) (k : Nat) : (s.setVf f).readByte k = s.readByte k := rfl
@[simp] theorem State.setVf_keyDown (f : Bool) (k : Reg) : (s.setVf f).keyDown k = s.keyDown k := rfl

/-! ### `State.writeFlagged` -/

@[simp] theorem State.writeFlagged_v (x : Reg) (b : Byte) (f : Bool) : (s.writeFlagged x b f).v = (s.v.set x.val b).set vf.val (flagByte f) := rfl
@[simp] theorem State.writeFlagged_i (x : Reg) (b : Byte) (f : Bool) : (s.writeFlagged x b f).i = s.i := rfl
@[simp] theorem State.writeFlagged_pc (x : Reg) (b : Byte) (f : Bool) : (s.writeFlagged x b f).pc = s.pc + 2#16 := rfl
@[simp] theorem State.writeFlagged_stack (x : Reg) (b : Byte) (f : Bool) : (s.writeFlagged x b f).stack = s.stack := rfl
@[simp] theorem State.writeFlagged_sp (x : Reg) (b : Byte) (f : Bool) : (s.writeFlagged x b f).sp = s.sp := rfl
@[simp] theorem State.writeFlagged_mem (x : Reg) (b : Byte) (f : Bool) : (s.writeFlagged x b f).mem = s.mem := rfl
@[simp] theorem State.writeFlagged_fb (x : Reg) (b : Byte) (f : Bool) : (s.writeFlagged x b f).fb = s.fb := rfl
@[simp] theorem State.writeFlagged_key (x : Reg) (b : Byte) (f : Bool) : (s.writeFlagged x b f).key = s.key := rfl
@[simp] theorem State.writeFlagged_dt (x : Reg) (b : Byte) (f : Bool) : (s.writeFlagged x b f).dt = s.dt := rfl
@[simp] theorem State.writeFlagged_st (x : Reg) (b : Byte) (f : Bool) : (s.writeFlagged x b f).st = s.st := rfl
@[simp] theorem State.writeFlagged_redraw (x : Reg) (b : Byte) (f : Bool) : (s.writeFlagged x b f).redraw = s.redraw := rfl
@[simp] theorem State.writeFlagged_fault (x : Reg) (b : Byte) (f : Bool) : (s.writeFlagged x b f).fault = s.fault := rfl
@[simp] theorem State.writeFlagged_run (x : Reg) (b : Byte) (f : Bool) : (s.writeFlagged x b f).run = s.run := rfl
@[simp] theorem State.writeFlagged_rom (x : Reg) (b : Byte) (f : Bool) : (s.writeFlagged x b f).rom = s.rom := rfl
@[simp] theorem State.writeFlagged_ready (x : Reg) (b : Byte) (f : Bool) : (s.writeFlagged x b f).ready = s.ready := rfl
@[simp] theorem State.writeFlagged_params (x : Reg) (b : Byte) (f : Bool) : (s.writeFlagged x b f).params = s.params := rfl
@[simp] theorem State.writeFlagged_draws (x : Reg) (b : Byte) (f : Bool) : (s.writeFlagged x b f).draws = s.draws := rfl
@[simp] theorem State.writeFlagged_readByte (x : Reg) (b : Byte) (f : Bool) (k : Nat) : (s.writeFlagged x b f).readByte k = s.readByte k := rfl
@[simp] theorem State.writeFlagged_keyDown (x : Reg) (b : Byte) (f : Bool) (k : Reg) : (s.writeFlagged x b f).keyDown k = s.keyDown k := rfl

/-! ### `State.countDraw` -/

@[simp] theorem State.countDraw_v : (s.countDraw).v = s.v := rfl
@[simp] theorem State.countDraw_i : (s.countDraw).i = s.i := rfl
@[simp] theorem State.countDraw_pc : (s.countDraw).pc = s.pc := rfl
@[simp] theorem State.countDraw_stack : (s.countDraw).stack = s.stack := rfl
@[simp] theorem State.countDraw_sp : (s.countDraw).sp = s.sp := rfl
@[simp] theorem State.countDraw_mem : (s.countDraw).mem = s.mem := rfl
@[simp] theorem State.countDraw_fb : (s.countDraw).fb = s.fb := rfl
@[simp] theorem State.countDraw_key : (s.countDraw).key = s.key := rfl
@[simp] theorem State.countDraw_dt : (s.countDraw).dt = s.dt := rfl
@[simp] theorem State.countDraw_st : (s.countDraw).st = s.st := rfl
@[simp] theorem State.countDraw_redraw : (s.countDraw).redraw = s.redraw := rfl
@[simp] theorem State.countDraw_fault : (s.countDraw).fault = s.fault := rfl
@[simp] theorem State.countDraw_run : (s.countDraw).run = s.run := rfl
@[simp] theorem State.countDraw_rom : (s.countDraw).rom = s.rom := rfl
@[simp] theorem State.countDraw_ready : (s.countDraw).ready = s.ready := rfl
@[simp] theorem State.countDraw_params : (s.countDraw).params = s.params := rfl
@[simp] theorem State.countDraw_draws : (s.countDraw).draws = s.draws + 1 := rfl
@[simp] theorem State.countDraw_reg (r : Reg) : (s.countDraw).reg r = s.reg r := rfl
@[simp] theorem State.countDraw_readByte (k : Nat) : (s.countDraw).readByte k = s.readByte k := rfl
@[simp] theorem State.countDraw_keyDown (k : Reg) : (s.countDraw).keyDown k = s.keyDown k := rfl

/-! ### `State.clearRedraw` -/

@[simp] theorem State.clearRedraw_v : (s.clearRedraw).v = s.v := rfl
@[simp] theorem State.clearRedraw_i : (s.clearRedraw).i = s.i := rfl
@[simp] theorem State.clearRedraw_pc : (s.clearRedraw).pc = s.pc := rfl
@[simp] theorem State.clearRedraw_stack : (s.clearRedraw).stack = s.stack := rfl
@[simp] theorem State.clearRedraw_sp : (s.clearRedraw).sp = s.sp := rfl
@[simp] theorem State.clearRedraw_mem : (s.clearRedraw).mem = s.mem := rfl
@[simp] theorem State.clearRedraw_fb : (s.clearRedraw).fb = s.fb := rfl
@[simp] theorem State.clearRedraw_key : (s.clearRedraw).key = s.key := rfl
@[simp] theorem State.clearRedraw_dt : (s.clearRedraw).dt = s.dt := rfl
@[simp] theorem State.clearRedraw_st : (s.clearRedraw).st = s.st := rfl
@[simp] theorem State.clearRedraw_redraw : (s.clearRedraw).redraw = false := rfl
@[simp] theorem State.clearRedraw_fault : (s.clearRedraw).fault = s.fault := rfl
@[simp] theorem State.clearRedraw_run : (s.clearRedraw).run = s.run := rfl
@[simp] theorem State.clearRedraw_rom : (s.clearRedraw).rom = s.rom := rfl
@[simp] theorem State.clearRedraw_ready : (s.clearRedraw).ready = s.ready := rfl
@[simp] theorem State.clearRedraw_params : (s.clearRedraw).params = s.params := rfl
@[simp] theorem State.clearRedraw_draws : (s.clearRedraw).draws = s.draws := rfl
@[simp] theorem State.clearRedraw_reg (r : Reg) : (s.clearRedraw).reg r = s.reg r := rfl
@[simp] theorem State.clearRedraw_readByte (k : Nat) : (s.clearRedraw).readByte k = s.readByte k := rfl
@[simp] theorem State.clearRedraw_keyDown (k : Reg) : (s.clearRedraw).keyDown k = s.keyDown k := rfl

/-! ### `State.ticked` -/

@[simp] theorem State.ticked_v : (s.ticked).v = s.v := rfl
@[simp] theorem State.ticked_i : (s.ticked).i = s.i := rfl
@[simp] theorem State.ticked_pc : (s.ticked).pc = s.pc := rfl
@[simp] theorem State.ticked_stack : (s.ticked).stack = s.stack := rfl
@[simp] theorem State.ticked_sp : (s.ticked).sp = s.sp := rfl
@[simp] theorem State.ticked_mem : (s.ticked).mem = s.mem := rfl
@[simp] theorem State.ticked_fb : (s.ticked).fb = s.fb := rfl
@[simp] theorem State.ticked_key : (s.ticked).key = s.key := rfl
@[simp] theorem State.ticked_dt : (s.ticked).dt = tickDelay s.dt := rfl
@[simp] theorem State.ticked_st : (s.ticked).st = tickSound s.st := rfl
@[simp] theorem State.ticked_redraw : (s.ticked).redraw = s.redraw := rfl
@[simp] theorem State.ticked_fault : (s.ticked).fault = s.fault := rfl
@[simp] theorem State.ticked_run : (s.ticked).run = s.run := rfl
@[simp] theorem State.ticked_rom : (s.ticked).rom = s.rom := rfl
@[simp] theorem State.ticked_ready : (s.ticked).ready = s.ready := rfl
@[simp] theorem State.ticked_params : (s.ticked).params = s.params := rfl
@[simp] theorem State.ticked_draws : (s.ticked).draws = s.draws := rfl
@[simp] theorem State.ticked_reg (r : Reg) : (s.ticked).reg r = s.reg r := rfl
@[simp] theorem State.ticked_readByte (k : Nat) : (s.ticked).readByte k = s.readByte k := rfl
@[simp] theorem State.ticked_keyDown (k : Reg) : (s.ticked).keyDown k = s.keyDown k := rfl

/-! ### `State.skipIf`: the fields it never changes -/

@[simp] theorem State.skipIf_v (c : Bool) : (s.skipIf c).v = s.v := by unfold State.skipIf; split <;> rfl
@[simp] theorem State.skipIf_i (c : Bool) : (s.skipIf c).i = s.i := by unfold State.skipIf; split <;> rfl
@[simp] theorem State.skipIf_stack (c : Bool) : (s.skipIf c).stack = s.stack := by unfold State.skipIf; split <;> rfl
@[simp] theorem State.skipIf_sp (c : Bool) : (s.skipIf c).sp = s.sp := by unfold State.skipIf; split <;> rfl
@[simp] theorem State.skipIf_mem (c : Bool) : (s.skipIf c).mem = s.mem := by unfold State.skipIf; split <;> rfl
@[simp] theorem State.skipIf_fb (c : Bool) : (s.skipIf c).fb = s.fb := by unfold State.skipIf; split <;> rfl
@[simp] theorem State.skipIf_key (c : Bool) : (s.skipIf c).key = s.key := by unfold State.skipIf; split <;> rfl
@[simp] theorem State.skipIf_dt (c : Bool) : (s.skipIf c).dt = s.dt := by unfold State.skipIf; split <;> rfl
@[simp] theorem State.skipIf_st (c : Bool) : (s.skipIf c).st = s.st := by unfold State.skipIf; split <;> rfl
@[simp] theorem State.skipIf_redraw (c : Bool) : (s.skipIf c).redraw = s.redraw := by unfold State.skipIf; split <;> rfl
@[simp] theorem State.skipIf_fault (c : Bool) : (s.skipIf c).fault = s.fault := by unfold State.skipIf; split <;> rfl
@[simp] theorem State.skipIf_run (c : Bool) : (s.skipIf c).run = s.run := by unfold State.skipIf; split <;> rfl
@[simp] theorem State.skipIf_rom (c : Bool) : (s.skipIf c).rom = s.rom := by unfold State.skipIf; split <;> rfl
@[simp] theorem State.skipIf_ready (c : Bool) : (s.skipIf c).ready = s.ready := by unfold State.skipIf; split <;> rfl
@[simp] theorem State.skipIf_params (c : Bool) : (s.skipIf c).params = s.params := by unfold State.skipIf; split <;> rfl
@[simp] theorem State.skipIf_draws (c : Bool) : (s.skipIf c).draws = s.draws := by unfold State.skipIf; split <;> rfl

/-! ### `State.countKeyDraw`: the fields it never changes -/

@[simp] theorem State.countKeyDraw_v : (s.countKeyDraw).v = s.v := by unfold State.countKeyDraw; split <;> rfl
@[simp] theorem State.countKeyDraw_i : (s.countKeyDraw).i = s.i := by unfold State.countKeyDraw; split <;> rfl
@[simp] theorem State.countKeyDraw_pc : (s.countKeyDraw).pc = s.pc := by unfold State.countKeyDraw; split <;> rfl
@[simp] theorem State.countKeyDraw_stack : (s.countKeyDraw).stack = s.stack := by unfold State.countKeyDraw; split <;> rfl
@[simp] theorem State.countKeyDraw_sp : (s.countKeyDraw).sp = s.sp := by unfold State.countKeyDraw; split <;> rfl
@[simp] theorem State.countKeyDraw_mem : (s.countKeyDraw).mem = s.mem := by unfold State.countKeyDraw; split <;> rfl
@[simp] theorem State.countKeyDraw_fb : (s.countKeyDraw).fb = s.fb := by unfold State.countKeyDraw; split <;> rfl
@[simp] theorem State.countKeyDraw_key : (s.countKeyDraw).key = s.key := by unfold State.countKeyDraw; split <;> rfl
@[simp] theorem State.countKeyDraw_dt : (s.countKeyDraw).dt = s.dt := by unfold State.countKeyDraw; split <;> rfl
@[simp] theorem State.countKeyDraw_st : (s.countKeyDraw).st = s.st := by unfold State.countKeyDraw; split <;> rfl
@[simp] theorem State.countKeyDraw_redraw : (s.countKeyDraw).redraw = s.redraw := by unfold State.countKeyDraw; split <;> rfl
@[simp] theorem State.countKeyDraw_fault : (s.countKeyDraw).fault = s.fault := by unfold State.countKeyDraw; split <;> rfl
@[simp] theorem State.countKeyDraw_run : (s.countKeyDraw).run = s.run := by unfold State.countKeyDraw; split <;> rfl
@[simp] theorem State.countKeyDraw_rom : (s.countKeyDraw).rom = s.rom := by unfold State.countKeyDraw; split <;> rfl
@[simp] theorem State.countKeyDraw_ready : (s.countKeyDraw).ready = s.ready := by unfold State.countKeyDraw; split <;> rfl
@[simp] theorem State.countKeyDraw_params : (s.countKeyDraw).params = s.params := by unfold State.countKeyDraw; split <;> rfl

/-! ### `State.call`: the fields it never changes -/

@[simp] theorem State.call_v (a : Word) : (s.call a).v = s.v := by unfold State.call; split <;> rfl
@[simp] theorem State.call_i (a : Word) : (s.call a).i = s.i := by unfold State.call; split <;> rfl
@[simp] theorem State.call_mem (a : Word) : (s.call a).mem = s.mem := by unfold State.call; split <;> rfl
@[simp] theorem State.call_fb (a : Word) : (s.call a).fb = s.fb := by unfold State.call; split <;> rfl
@[simp] theorem State.call_key (a : Word) : (s.call a).key = s.key := by unfold State.call; split <;> rfl
@[simp] theorem State.call_dt (a : Word) : (s.call a).dt = s.dt := by unfold State.call; split <;> rfl
@[simp] theorem State.call_st (a : Word) : (s.call a).st = s.st := by unfold State.call; split <;> rfl
@[simp] theorem State.call_redraw (a : Word) : (s.call a).redraw = s.redraw := by unfold State.call; split <;> rfl
@[simp] theorem State.call_run (a : Word) : (s.call a).run = s.run := by unfold State.call; split <;> rfl
@[simp] theorem State.call_rom (a : Word) : (s.call a).rom = s.rom := by unfold State.call; split <;> rfl
@[simp] theorem State.call_ready (a : Word) : (s.call a).ready = s.ready := by unfold State.call; split <;> rfl
@[simp] theorem State.call_params (a : Word) : (s.call a).params = s.params := by unfold State.call; split <;> rfl
@[simp] theorem State.call_draws (a : Word) : (s.call a).draws = s.draws := by unfold State.call; split <;> rfl

/-! ### `State.ret`: the fields it never changes -/

@[simp] theorem State.ret_v : (s.ret).v = s.v := by unfold State.ret; split <;> rfl
@[simp] theorem State.ret_i : (s.ret).i = s.i := by unfold State.ret; split <;> rfl
@[simp] theorem State.ret_stack : (s.ret).stack = s.stack := by unfold State.ret; split <;> rfl
@[simp] theorem State.ret_mem : (s.ret).mem = s.mem := by unfold State.ret; split <;> rfl
@[simp] theorem State.ret_fb : (s.ret).fb = s.fb := by unfold State.ret; split <;> rfl
@[simp] theorem State.ret_key : (s.ret).key = s.key := by unfold State.ret; split <;> rfl
@[simp] theorem State.ret_dt : (s.ret).dt = s.dt := by unfold State.ret; split <;> rfl
@[simp] theorem State.ret_st : (s.ret).st = s.st := by unfold State.ret; split <;> rfl
@[simp] theorem State.ret_redraw : (s.ret).redraw = s.redraw := by unfold State.ret; split <;> rfl
@[simp] theorem State.ret_run : (s.ret).run = s.run := by unfold State.ret; split <;> rfl
@[simp] theorem State.ret_rom : (s.ret).rom = s.rom := by unfold State.ret; split <;> rfl
@[simp] theorem State.ret_ready : (s.ret).ready = s.ready := by unfold State.ret; split <;> rfl
@[simp] theorem State.ret_params : (s.ret).params = s.params := by unfold State.ret; split <;> rfl
@[simp] theorem State.ret_draws : (s.ret).draws = s.draws := by unfold State.ret; split <;> rfl

/-! ### `State.skipOnKey`: the fields it never changes -/

@[simp] theorem State.skipOnKey_v (k : Byte) (level : Bool) : (s.skipOnKey k level).v = s.v := by unfold State.skipOnKey; split <;> simp
@[simp] theorem State.skipOnKey_i (k : Byte) (level : Bool) : (s.skipOnKey k level).i = s.i := by unfold State.skipOnKey; split <;> simp
@[simp] theorem State.skipOnKey_stack (k : Byte) (level : Bool) : (s.skipOnKey k level).stack = s.stack := by unfold State.skipOnKey; split <;> simp
@[simp] theorem State.skipOnKey_sp (k : Byte) (level : Bool) : (s.skipOnKey k level).sp = s.sp := by unfold State.skipOnKey; split <;> simp
@[simp] theorem State.skipOnKey_mem (k : Byte) (level : Bool) : (s.skipOnKey k level).mem = s.mem := by unfold State.skipOnKey; split <;> simp
@[simp] theorem State.skipOnKey_fb (k : Byte) (level : Bool) : (s.skipOnKey k level).fb = s.fb := by unfold State.skipOnKey; split <;> simp
@[simp] theorem State.skipOnKey_key (k : Byte) (level : Bool) : (s.skipOnKey k level).key = s.key := by unfold State.skipOnKey; split <;> simp
@[simp] theorem State.skipOnKey_dt (k : Byte) (level : Bool) : (s.skipOnKey k level).dt = s.dt := by unfold State.skipOnKey; split <;> simp
@[simp] theorem State.skipOnKey_st (k : Byte) (level : Bool) : (s.skipOnKey k level).st = s.st := by unfold State.skipOnKey; split <;> simp
@[simp] theorem State.skipOnKey_redraw (k : Byte) (level : Bool) : (s.skipOnKey k level).redraw = s.redraw := by unfold State.skipOnKey; split <;> simp
@[simp] theorem State.skipOnKey_run (k : Byte) (level : Bool) : (s.skipOnKey k level).run = s.run := by unfold State.skipOnKey; split <;> simp
@[simp] theorem State.skipOnKey_rom (k : Byte) (level : Bool) : (s.skipOnKey k level).rom = s.rom := by unfold State.skipOnKey; split <;> simp
@[simp] theorem State.skipOnKey_ready (k : Byte) (level : Bool) : (s.skipOnKey k level).ready = s.ready := by unfold State.skipOnKey; split <;> simp
@[simp] theorem State.skipOnKey_params (k : Byte) (level : Bool) : (s.skipOnKey k level).params = s.params := by unfold State.skipOnKey; split <;> simp
@[simp] theorem State.skipOnKey_draws (k : Byte) (level : Bool) : (s.skipOnKey k level).draws = s.draws := by unfold State.skipOnKey; split <;> simp

/-! ### Registers -/

/-- Reading a register after writing one. -/
theorem State.setReg_reg (x r : Reg) (b : Byte) : (s.setReg x b).reg r = if r = x then b else s.reg r := by
  by_cases h : r = x
  · subst h; simp [State.reg, State.setReg]
  · have h' : x.val ≠ r.val := fun e => h (Fin.ext e.symm)
    simp [State.reg, State.setReg, h, h']

@[simp] theorem State.setReg_reg_self (x : Reg) (b : Byte) : (s.setReg x b).reg x = b := by
  simp [State.setReg_reg]

@[simp] theorem State.setReg_reg_of_ne {x r : Reg} (h : r ≠ x) (b : Byte) : (s.setReg x b).reg r = s.reg r := by
  simp [State.setReg_reg, h]

/-- Reading a register after writing the flag. -/
theorem State.setVf_reg (r : Reg) (f : Bool) : (s.setVf f).reg r = if r = vf then flagByte f else s.reg r :=
  State.setReg_reg s vf r (flagByte f)

/-- The registers after a flagged result: the flag overwrites the result when the destination is VF (R133). -/
theorem State.writeFlagged_reg (x r : Reg) (b : Byte) (f : Bool) :
    (s.writeFlagged x b f).reg r = if r = vf then flagByte f else if r = x then b else s.reg r := by
  rw [State.writeFlagged, State.advance_reg, State.setVf_reg, State.setReg_reg]

/-- Two register files with the same registers are the same. -/
theorem State.v_ext {s t : State} (h : ∀ r, s.reg r = t.reg r) : s.v = t.v := by
  apply Vector.ext
  intro k hk
  exact h ⟨k, hk⟩

end Sys2Proof.Machine
end

