-- ==== Sys2Proof/Laws/Ops.lean ====
section
/-! SUPPORT. One lemma for each shared operation, saying everything it can do; later proofs cite these and do not unfold
the operations. -/

namespace Sys2Proof.Machine

/-! ### Operands, as natural numbers -/

@[simp] theorem addrOperand_toNat (nnn : Addr) : (addrOperand nnn).toNat = nnn.toNat := by
  rw [addrOperand, BitVec.toNat_setWidth]
  exact Nat.mod_eq_of_lt (by omega)

@[simp] theorem byteOperand_toNat (b : Byte) : (byteOperand b).toNat = b.toNat := by
  rw [byteOperand, BitVec.toNat_setWidth]
  exact Nat.mod_eq_of_lt (by omega)

/-- The relative jump's target is the exact sum: no wrap (R109). -/
theorem jumpRelTarget_toNat (s : State) (nnn : Addr) :
    (jumpRelTarget s nnn).toNat = nnn.toNat + (s.reg 0).toNat := by
  rw [jumpRelTarget, BitVec.toNat_add, addrOperand_toNat, byteOperand_toNat]
  exact Nat.mod_eq_of_lt (by omega)

/-- The font address is the exact product: no wrap (R142). -/
theorem fontAddress_toNat (b : Byte) : (fontAddress b).toNat = b.toNat * 5 := by
  rw [fontAddress, BitVec.toNat_mul, byteOperand_toNat]
  exact Nat.mod_eq_of_lt (by simp; omega)

theorem flagByte_eq_one (f : Bool) : flagByte f = 1#8 ↔ f = true := by cases f <;> decide

theorem flagByte_eq_zero (f : Bool) : flagByte f = 0#8 ↔ f = false := by cases f <;> decide

@[simp] theorem bcdDigits_length (b : Byte) : (bcdDigits b).length = 3 := rfl

@[simp] theorem registerList_length (s : State) (x : Reg) : (registerList s x).length = x.val + 1 := by
  simp [registerList]

/-- Entry `k` of the register list is `V[k]` (R144). -/
theorem registerList_getElem (s : State) (x : Reg) (k : Nat) (h : k < (registerList s x).length) :
    (registerList s x)[k] = s.reg ⟨k, by simp at h; omega⟩ := by
  simp [registerList, State.reg]

/-- A register of the loaded file: from memory up to VX, else as it was (R145). -/
theorem loadedRegisters_getElem (s : State) (x r : Reg) :
    (loadedRegisters s x)[r.val] = if r.val ≤ x.val then s.readByte (s.i.toNat + r.val) else s.reg r := by
  simp [loadedRegisters, State.reg]

/-! ### Bounds, refusal, skips -/

theorem outOfRange_iff (first n : Nat) : outOfRange first n = true ↔ 1 ≤ n ∧ 4095 < first + n - 1 := by
  unfold outOfRange; exact decide_eq_true_iff

theorem outOfRange_eq_false (first n : Nat) : outOfRange first n = false ↔ (n = 0 ∨ first + n - 1 ≤ 4095) := by
  rw [← Bool.not_eq_true, outOfRange_iff]; omega

/-- A data access in range leaves the instruction's state; one out of range raises and does nothing else (R55, R63). -/
theorem State.withData_eq (s t : State) (n : Nat) :
    (s.withData n t = t ∧ (n = 0 ∨ s.i.toNat + n - 1 ≤ 4095)) ∨
      (s.withData n t = s.raise (.memOutOfRange (s.i.toNat + n - 1)) ∧ 1 ≤ n ∧ 4095 < s.i.toNat + n - 1) := by
  unfold State.withData
  split
  · rename_i h; exact Or.inr ⟨rfl, (outOfRange_iff ..).1 h⟩
  · rename_i h; exact Or.inl ⟨rfl, (outOfRange_eq_false ..).1 (by simpa using h)⟩

theorem State.withData_of_inRange {s : State} {n : Nat} (h : n = 0 ∨ s.i.toNat + n - 1 ≤ 4095) (t : State) :
    s.withData n t = t := by
  rw [State.withData, (outOfRange_eq_false ..).2 h]; rfl

theorem State.withData_of_outOfRange {s : State} {n : Nat} (h1 : 1 ≤ n) (h : 4095 < s.i.toNat + n - 1) (t : State) :
    s.withData n t = s.raise (.memOutOfRange (s.i.toNat + n - 1)) := by
  rw [State.withData, (outOfRange_iff ..).2 ⟨h1, h⟩]; rfl

/-- The option `REFUSE_VF_DEST` refuses exactly the destination VF (R133). -/
theorem refusingVfDest_eq (s t : State) (x : Reg) :
    (refusingVfDest s x t = .next t ∧ ¬(s.params.refuseVfDest = true ∧ x = vf)) ∨
      (refusingVfDest s x t = .refused .vfDestination ∧ s.params.refuseVfDest = true ∧ x = vf) := by
  unfold refusingVfDest
  by_cases h : s.params.refuseVfDest = true ∧ x = vf
  · exact Or.inr ⟨by simp [h.1, h.2], h⟩
  · exact Or.inl ⟨if_neg (by simpa using h), h⟩

/-- A skip moves `PC` by 4 or by 2 and changes nothing else (R101). -/
theorem State.skipIf_eq (s : State) (c : Bool) :
    s.skipIf c = { s with pc := if c then s.pc + 4#16 else s.pc + 2#16 } := by
  cases c <;> rfl

/-! ### The stack -/

theorem State.call_of_lt {s : State} (h : s.sp.val < 16) (a : Word) :
    s.call a = { s with stack := s.stack.set s.sp.val (s.pc + 2#16), sp := ⟨s.sp.val + 1, by omega⟩, pc := a } := by
  simp [State.call, h]

theorem State.call_of_full {s : State} (h : s.sp.val = 16) (a : Word) : s.call a = s.raise .stackOverflow := by
  simp [State.call, h]

theorem State.ret_of_pos {s : State} (k : Nat) (h : s.sp.val = k + 1) (hk : k < 16) :
    s.ret = { s with sp := ⟨k, by omega⟩, pc := s.stack[k] } := by
  have h0 : 0 < s.sp.val := by omega
  simp [State.ret, h]

theorem State.ret_of_empty {s : State} (h : s.sp.val = 0) : s.ret = s.raise .stackUnderflow := by
  simp [State.ret, h]

/-! ### The keypad -/

theorem State.mem_pressedKeys (s : State) (k : Reg) : k ∈ s.pressedKeys ↔ s.keyDown k = true := by
  simp [State.pressedKeys]

theorem State.pressedKeys_eq_nil (s : State) : s.pressedKeys = [] ↔ ∀ k, s.keyDown k = false := by
  simp [State.pressedKeys, List.filter_eq_nil_iff]

/-- The first pressed key is the lowest. -/
theorem State.pressedKeys_head_le {s : State} {k : Reg} {ks : List Reg} (h : s.pressedKeys = k :: ks) (j : Reg)
    (hj : s.keyDown j = true) : k ≤ j := by
  have sorted : s.pressedKeys.Pairwise (· ≤ ·) :=
    List.Pairwise.filter _ ((List.pairwise_lt_finRange 16).imp le_of_lt)
  have mem : j ∈ k :: ks := h ▸ (s.mem_pressedKeys j).2 hj
  rw [h] at sorted
  rcases List.mem_cons.1 mem with rfl | m
  · exact le_refl _
  · exact (List.pairwise_cons.1 sorted).1 j m

/-- The key wait-for-key reports is one that is down (R162). -/
theorem selectedKey_mem (s : State) (k : Reg) (ks : List Reg) : selectedKey s k ks ∈ k :: ks := by
  unfold selectedKey
  split
  · exact List.mem_cons_self
  · exact List.getElem_mem _

/-! ### Fetching -/

/-- What a `STEP` does, in the order of its checks (R172). -/
theorem nextAction_cases (s : State) :
    (s.ready = false ∧ nextAction s = .refuse .beforeReset) ∨
    (s.ready = true ∧ s.fault ≠ none ∧ nextAction s = .idle) ∨
    (s.ready = true ∧ s.fault = none ∧ 4094 < s.pc.toNat ∧ nextAction s = .raise (.fetchOutOfRange s.pc)) ∨
    (s.ready = true ∧ s.fault = none ∧ s.pc.toNat ≤ 4094 ∧
      nextAction s = decodedAction (decodeWith s.params.strict59 s.fetchedWord)) := by
  unfold nextAction
  by_cases hr : s.ready = false
  · exact Or.inl ⟨hr, if_pos hr⟩
  · have hr' : s.ready = true := by simpa using hr
    rw [if_neg hr]
    by_cases hf : s.fault = none
    · rw [if_neg (by simp [hf])]
      by_cases hp : 4094 < s.pc.toNat
      · rw [if_pos ((outOfRange_iff ..).2 ⟨by omega, by omega⟩)]
        exact Or.inr (Or.inr (Or.inl ⟨hr', hf, hp, rfl⟩))
      · rw [if_neg (by rw [outOfRange_iff]; omega)]
        exact Or.inr (Or.inr (Or.inr ⟨hr', hf, by omega, rfl⟩))
    · rw [if_pos (Option.isSome_iff_ne_none.2 hf)]
      exact Or.inr (Or.inl ⟨hr', hf, rfl⟩)

/-- Everything a `STEP` that answers a next state has done: nothing, under a latched fault; raised a fault; or run the
decoded instruction with the redraw flag cleared. -/
theorem step_cases {s t : State} (h : step s = .next t) :
    s.ready = true ∧
      ((s.fault ≠ none ∧ t = s) ∨
        (s.fault = none ∧ ∃ c, t = s.clearRedraw.raise c) ∨
        (s.fault = none ∧ s.pc.toNat ≤ 4094 ∧ ∃ i,
          decodeWith s.params.strict59 s.fetchedWord = .instr i ∧ exec i s.clearRedraw = .next t)) := by
  rcases nextAction_cases s with ⟨_, e⟩ | ⟨hr, hf, e⟩ | ⟨hr, hf, hp, e⟩ | ⟨hr, hf, hp, e⟩ <;>
    simp only [step, e] at h
  · cases h
  · injection h with h; exact ⟨hr, Or.inl ⟨hf, h.symm⟩⟩
  · injection h with h; exact ⟨hr, Or.inr (Or.inl ⟨hf, _, h.symm⟩)⟩
  · cases hd : decodeWith s.params.strict59 s.fetchedWord with
    | unknown w =>
      rw [hd] at h
      injection h with h
      exact ⟨hr, Or.inr (Or.inl ⟨hf, _, h.symm⟩)⟩
    | instr i =>
      rw [hd] at h
      exact ⟨hr, Or.inr (Or.inr ⟨hf, hp, i, rfl, h⟩)⟩

/-- The value of a fetched word (R52, R57). -/
theorem wordOfBytes_toNat (hi lo : Byte) : (wordOfBytes hi lo).toNat = hi.toNat * 256 + lo.toNat := by
  rw [wordOfBytes, BitVec.toNat_append, Nat.shiftLeft_eq, Nat.mul_comm, ← Nat.two_pow_add_eq_or_of_lt lo.isLt]

/-- The big-endian word of a word's two bytes is the word (R52). -/
theorem wordOfBytes_high_low (w : Word) : wordOfBytes (highByte w) (lowByte w) = w := by
  apply BitVec.eq_of_toNat_eq
  rw [wordOfBytes_toNat, highByte, lowByte, BitVec.extractLsb'_toNat, BitVec.extractLsb'_toNat]
  simp only [Nat.shiftRight_eq_div_pow]
  omega

end Sys2Proof.Machine
end

