-- ==== Sys2Proof/Laws/Events.lean ====
section
/-! SUPPORT. What each gate and output of the boundary does, said once; later proofs about operations cite these. -/

namespace Sys2Proof.Machine

/-- While `run` is not `Paused` the gate lets an operation through (R180). -/
theorem State.unlessPaused_of_ne {s : State} (h : s.run ≠ .paused) (k : OpResult) : s.unlessPaused k = k := by
  unfold State.unlessPaused
  split
  · rename_i e; exact absurd e h
  · rfl
  · rfl

/-- While `run` is `Paused` the gate refuses (R185). -/
theorem State.unlessPaused_of_paused {s : State} (h : s.run = .paused) (k : OpResult) :
    s.unlessPaused k = .refused .strobesSuspended := by
  simp [State.unlessPaused, h]

/-- In a live state the precondition lets an operation through (R185). -/
theorem State.whenLive_of_live {s : State} (hr : s.ready = true) (hf : s.fault = none) (k : OpResult) :
    s.whenLive k = k := by
  simp [State.whenLive, hr, hf]

/-- With a fault latched an operation changes nothing and fires nothing (R171). -/
theorem State.whenLive_of_faulted {s : State} (hr : s.ready = true) (hf : s.fault ≠ none) (k : OpResult) :
    s.whenLive k = .next (s, []) := by
  simp [State.whenLive, hr, Option.isSome_iff_ne_none.2 hf]

/-- Before the first `RESET` an operation is refused (R185). -/
theorem State.whenLive_of_unready {s : State} (hr : s.ready = false) (k : OpResult) :
    s.whenLive k = .refused .beforeReset := by
  simp [State.whenLive, hr]

/-- The `fault` output is the record that this `STEP` latched, or nothing (R184). -/
theorem faultOutput_cases (s t : State) :
    (∃ r, s.fault = none ∧ t.fault = some r ∧ faultOutput s t = [.faulted r]) ∨
      ((s.fault ≠ none ∨ t.fault = none) ∧ faultOutput s t = []) := by
  unfold faultOutput
  cases hs : s.fault with
  | some c => exact Or.inr ⟨Or.inl (by simp), rfl⟩
  | none =>
    cases ht : t.fault with
    | none => exact Or.inr ⟨Or.inr rfl, rfl⟩
    | some r => exact Or.inl ⟨r, rfl, rfl, rfl⟩

end Sys2Proof.Machine
end

