-- ==== Sys2Proof/Laws/Exec.lean ====
section
/-! SUPPORT. What `exec` can do, said once for all instructions, and how a run unfolds into steps. -/

namespace Sys2Proof.Machine

/-- A key skip with an index 0 to 15 is a skip on that key (R160, R161). -/
theorem State.skipOnKey_of_lt {s : State} {k : Byte} (h : k.toNat < 16) (level : Bool) :
    s.skipOnKey k level = s.skipIf (s.keyDown ⟨k.toNat, h⟩ == level) := by
  simp [State.skipOnKey, h]

/-- A key skip with an index above 15 raises (R160, R161). -/
theorem State.skipOnKey_of_ge {s : State} {k : Byte} (h : 16 ≤ k.toNat) (level : Bool) :
    s.skipOnKey k level = s.raise (.keyIndexOutOfRange k) := by
  simp [State.skipOnKey, Nat.not_lt.2 h]

/-- A call or a return leaves the latch empty or raises. -/
theorem State.call_fault {s : State} (hf : s.fault = none) (a : Word) :
    (s.call a).fault = none ∨ ∃ c, s.call a = s.raise c := by
  unfold State.call
  split
  · exact Or.inl hf
  · exact Or.inr ⟨_, rfl⟩

theorem State.ret_fault {s : State} (hf : s.fault = none) : s.ret.fault = none ∨ ∃ c, s.ret = s.raise c := by
  unfold State.ret
  split
  · exact Or.inl hf
  · exact Or.inr ⟨_, rfl⟩

theorem State.withData_fault {s t : State} (ht : t.fault = none) (n : Nat) :
    (s.withData n t).fault = none ∨ ∃ c, s.withData n t = s.raise c := by
  rcases s.withData_eq t n with ⟨e, _⟩ | ⟨e, _⟩ <;> rw [e]
  · exact Or.inl ht
  · exact Or.inr ⟨_, rfl⟩

theorem State.skipOnKey_fault {s : State} (hf : s.fault = none) (k : Byte) (level : Bool) :
    (s.skipOnKey k level).fault = none ∨ ∃ c, s.skipOnKey k level = s.raise c := by
  unfold State.skipOnKey
  split
  · rw [State.skipIf_eq]; exact Or.inl hf
  · exact Or.inr ⟨_, rfl⟩

/-- An instruction that answers a next state raised no fault, or did nothing but raise one (R63, R171). -/
theorem exec_fault {i : Instr} {s t : State} (h : exec i s = .next t) (hf : s.fault = none) :
    t.fault = none ∨ ∃ c, t = s.raise c := by
  cases i <;> simp only [exec] at h
  case ret => cases h; exact State.ret_fault hf
  case call nnn => cases h; exact State.call_fault hf _
  case drw x y n => cases h; exact State.withData_fault (by exact hf) _
  case skp x => cases h; exact State.skipOnKey_fault hf _ _
  case sknp x => cases h; exact State.skipOnKey_fault hf _ _
  case ldB x => cases h; exact State.withData_fault (by exact hf) _
  case ldMemVx x => cases h; exact State.withData_fault (by exact hf) _
  case ldVxMem x => cases h; exact State.withData_fault (by exact hf) _
  case ldVxK x =>
    unfold execLdVxK at h
    split at h <;> cases h
    · exact Or.inl hf
    · left; simpa using hf
  all_goals
    simp only [execAddReg, execSub, execShr, execSubn, execShl, refusingVfDest, execCls, execJp, execJpV0, execSeImm,
      execSneImm, execSeReg, execSneReg, execLdImm, execAddImm, execLdReg, execOr, execAnd, execXor, execRnd, execLdI,
      execAddI, execLdF, execLdVxDt, execLdDtVx, execLdStVx, State.skipIf_eq] at h
    first
    | (cases h; exact Or.inl hf)
    | (split at h <;> cases h; exact Or.inl hf)

/-- No instruction changes the keypad, the run control, the remembered ROM, the parameters or `ready` (R37). -/
theorem exec_boundary {i : Instr} {s t : State} (h : exec i s = .next t) :
    t.run = s.run ∧ t.rom = s.rom ∧ t.ready = s.ready ∧ t.params = s.params ∧ t.key = s.key := by
  cases i <;> simp only [exec] at h
  case ret => cases h; simp
  case call => cases h; simp
  case drw => cases h; simp only [State.withData]; split <;> simp
  case skp => cases h; simp
  case sknp => cases h; simp
  case ldB => cases h; simp only [State.withData]; split <;> simp
  case ldMemVx => cases h; simp only [State.withData]; split <;> simp
  case ldVxMem => cases h; simp only [State.withData]; split <;> simp
  case ldVxK x =>
    unfold execLdVxK at h
    split at h <;> cases h <;> simp
  all_goals
    try simp only [execAddReg, execSub, execShr, execSubn, execShl, refusingVfDest, execSeImm, execSneImm, execSeReg,
      execSneReg, State.skipIf_eq] at h
    first
    | (cases h; exact ⟨rfl, rfl, rfl, rfl, rfl⟩)
    | (split at h <;> cases h; exact ⟨rfl, rfl, rfl, rfl, rfl⟩)

/-- A run of `k + 1` steps is a step and a run of `k`. -/
theorem core_run_succ {s t : State} (h : step s = .next t) (k : Nat) :
    Host.Core.run Sys2Proof.core (k + 1) s = Host.Core.run Sys2Proof.core k t := by
  have e : Sys2Proof.core.step s = .next t := h
  simp only [Host.Core.run, e]

end Sys2Proof.Machine
end

