-- ==== Sys2Proof/Laws/PerInstr.lean ====
section
/-! SUPPORT. Statements for all instructions, one lemma per constructor. The family SelectsItsRow: the canonical word of an
instruction selects the row of the opcode map (spec/30_encoding.md R75) that bears its mnemonic. -/

namespace Sys2Proof.Laws

/-- The word of `i` selects the row of R75 with `i`'s mnemonic. -/
def SelectsItsRow.Statement (i : Instr) : Prop :=
  ∃ r ∈ opRows, r.mnemonic = i.mnemonic ∧ r.selects (encode i) = true

/-- How a lemma of the family is met: the row, and the masked word. -/
theorem SelectsItsRow.intro {i : Instr} (r : OpRow) (hr : r ∈ opRows) (hm : r.mnemonic = i.mnemonic)
    (hw : encode i &&& r.mask = r.value) : SelectsItsRow.Statement i :=
  ⟨r, hr, hm, by rw [OpRow.selects, hw]; exact beq_self_eq_true _⟩

theorem SelectsItsRow.cls : SelectsItsRow.Statement .cls :=
  SelectsItsRow.intro ⟨"CLS", 0xFFFF#16, 0x00E0#16⟩ (by decide) rfl rfl

theorem SelectsItsRow.ret : SelectsItsRow.Statement .ret :=
  SelectsItsRow.intro ⟨"RET", 0xFFFF#16, 0x00EE#16⟩ (by decide) rfl rfl

theorem SelectsItsRow.jp (nnn : Addr) : SelectsItsRow.Statement (.jp nnn) :=
  SelectsItsRow.intro ⟨"JP", 0xF000#16, 0x1000#16⟩ (by decide) rfl (encodeA_and_F000 ..)

theorem SelectsItsRow.call (nnn : Addr) : SelectsItsRow.Statement (.call nnn) :=
  SelectsItsRow.intro ⟨"CALL", 0xF000#16, 0x2000#16⟩ (by decide) rfl (encodeA_and_F000 ..)

theorem SelectsItsRow.seImm (x : Reg) (nn : Byte) : SelectsItsRow.Statement (.seImm x nn) :=
  SelectsItsRow.intro ⟨"SE_IMM", 0xF000#16, 0x3000#16⟩ (by decide) rfl (encodeI_and_F000 ..)

theorem SelectsItsRow.sneImm (x : Reg) (nn : Byte) : SelectsItsRow.Statement (.sneImm x nn) :=
  SelectsItsRow.intro ⟨"SNE_IMM", 0xF000#16, 0x4000#16⟩ (by decide) rfl (encodeI_and_F000 ..)

theorem SelectsItsRow.seReg (x y : Reg) : SelectsItsRow.Statement (.seReg x y) :=
  SelectsItsRow.intro ⟨"SE_REG", 0xF000#16, 0x5000#16⟩ (by decide) rfl (encodeR_and_F000 ..)

theorem SelectsItsRow.ldImm (x : Reg) (nn : Byte) : SelectsItsRow.Statement (.ldImm x nn) :=
  SelectsItsRow.intro ⟨"LD_IMM", 0xF000#16, 0x6000#16⟩ (by decide) rfl (encodeI_and_F000 ..)

theorem SelectsItsRow.addImm (x : Reg) (nn : Byte) : SelectsItsRow.Statement (.addImm x nn) :=
  SelectsItsRow.intro ⟨"ADD_IMM", 0xF000#16, 0x7000#16⟩ (by decide) rfl (encodeI_and_F000 ..)

theorem SelectsItsRow.ldReg (x y : Reg) : SelectsItsRow.Statement (.ldReg x y) :=
  SelectsItsRow.intro ⟨"LD_REG", 0xF00F#16, 0x8000#16⟩ (by decide) rfl (encodeR_and_F00F ..)

theorem SelectsItsRow.or (x y : Reg) : SelectsItsRow.Statement (.or x y) :=
  SelectsItsRow.intro ⟨"OR", 0xF00F#16, 0x8001#16⟩ (by decide) rfl (encodeR_and_F00F ..)

theorem SelectsItsRow.and (x y : Reg) : SelectsItsRow.Statement (.and x y) :=
  SelectsItsRow.intro ⟨"AND", 0xF00F#16, 0x8002#16⟩ (by decide) rfl (encodeR_and_F00F ..)

theorem SelectsItsRow.xor (x y : Reg) : SelectsItsRow.Statement (.xor x y) :=
  SelectsItsRow.intro ⟨"XOR", 0xF00F#16, 0x8003#16⟩ (by decide) rfl (encodeR_and_F00F ..)

theorem SelectsItsRow.addReg (x y : Reg) : SelectsItsRow.Statement (.addReg x y) :=
  SelectsItsRow.intro ⟨"ADD_REG", 0xF00F#16, 0x8004#16⟩ (by decide) rfl (encodeR_and_F00F ..)

theorem SelectsItsRow.sub (x y : Reg) : SelectsItsRow.Statement (.sub x y) :=
  SelectsItsRow.intro ⟨"SUB", 0xF00F#16, 0x8005#16⟩ (by decide) rfl (encodeR_and_F00F ..)

theorem SelectsItsRow.shr (x y : Reg) : SelectsItsRow.Statement (.shr x y) :=
  SelectsItsRow.intro ⟨"SHR", 0xF00F#16, 0x8006#16⟩ (by decide) rfl (encodeR_and_F00F ..)

theorem SelectsItsRow.subn (x y : Reg) : SelectsItsRow.Statement (.subn x y) :=
  SelectsItsRow.intro ⟨"SUBN", 0xF00F#16, 0x8007#16⟩ (by decide) rfl (encodeR_and_F00F ..)

theorem SelectsItsRow.shl (x y : Reg) : SelectsItsRow.Statement (.shl x y) :=
  SelectsItsRow.intro ⟨"SHL", 0xF00F#16, 0x800E#16⟩ (by decide) rfl (encodeR_and_F00F ..)

theorem SelectsItsRow.sneReg (x y : Reg) : SelectsItsRow.Statement (.sneReg x y) :=
  SelectsItsRow.intro ⟨"SNE_REG", 0xF000#16, 0x9000#16⟩ (by decide) rfl (encodeR_and_F000 ..)

theorem SelectsItsRow.ldI (nnn : Addr) : SelectsItsRow.Statement (.ldI nnn) :=
  SelectsItsRow.intro ⟨"LD_I", 0xF000#16, 0xA000#16⟩ (by decide) rfl (encodeA_and_F000 ..)

theorem SelectsItsRow.jpV0 (nnn : Addr) : SelectsItsRow.Statement (.jpV0 nnn) :=
  SelectsItsRow.intro ⟨"JP_V0", 0xF000#16, 0xB000#16⟩ (by decide) rfl (encodeA_and_F000 ..)

theorem SelectsItsRow.rnd (x : Reg) (nn : Byte) : SelectsItsRow.Statement (.rnd x nn) :=
  SelectsItsRow.intro ⟨"RND", 0xF000#16, 0xC000#16⟩ (by decide) rfl (encodeI_and_F000 ..)

theorem SelectsItsRow.drw (x y : Reg) (n : Fin 16) : SelectsItsRow.Statement (.drw x y n) :=
  SelectsItsRow.intro ⟨"DRW", 0xF000#16, 0xD000#16⟩ (by decide) rfl (encodeR_and_F000 ..)

theorem SelectsItsRow.skp (x : Reg) : SelectsItsRow.Statement (.skp x) :=
  SelectsItsRow.intro ⟨"SKP", 0xF0FF#16, 0xE09E#16⟩ (by decide) rfl (encodeI_and_F0FF ..)

theorem SelectsItsRow.sknp (x : Reg) : SelectsItsRow.Statement (.sknp x) :=
  SelectsItsRow.intro ⟨"SKNP", 0xF0FF#16, 0xE0A1#16⟩ (by decide) rfl (encodeI_and_F0FF ..)

theorem SelectsItsRow.ldVxDt (x : Reg) : SelectsItsRow.Statement (.ldVxDt x) :=
  SelectsItsRow.intro ⟨"LD_VX_DT", 0xF0FF#16, 0xF007#16⟩ (by decide) rfl (encodeI_and_F0FF ..)

theorem SelectsItsRow.ldVxK (x : Reg) : SelectsItsRow.Statement (.ldVxK x) :=
  SelectsItsRow.intro ⟨"LD_VX_K", 0xF0FF#16, 0xF00A#16⟩ (by decide) rfl (encodeI_and_F0FF ..)

theorem SelectsItsRow.ldDtVx (x : Reg) : SelectsItsRow.Statement (.ldDtVx x) :=
  SelectsItsRow.intro ⟨"LD_DT_VX", 0xF0FF#16, 0xF015#16⟩ (by decide) rfl (encodeI_and_F0FF ..)

theorem SelectsItsRow.ldStVx (x : Reg) : SelectsItsRow.Statement (.ldStVx x) :=
  SelectsItsRow.intro ⟨"LD_ST_VX", 0xF0FF#16, 0xF018#16⟩ (by decide) rfl (encodeI_and_F0FF ..)

theorem SelectsItsRow.addI (x : Reg) : SelectsItsRow.Statement (.addI x) :=
  SelectsItsRow.intro ⟨"ADD_I", 0xF0FF#16, 0xF01E#16⟩ (by decide) rfl (encodeI_and_F0FF ..)

theorem SelectsItsRow.ldF (x : Reg) : SelectsItsRow.Statement (.ldF x) :=
  SelectsItsRow.intro ⟨"LD_F", 0xF0FF#16, 0xF029#16⟩ (by decide) rfl (encodeI_and_F0FF ..)

theorem SelectsItsRow.ldB (x : Reg) : SelectsItsRow.Statement (.ldB x) :=
  SelectsItsRow.intro ⟨"LD_B", 0xF0FF#16, 0xF033#16⟩ (by decide) rfl (encodeI_and_F0FF ..)

theorem SelectsItsRow.ldMemVx (x : Reg) : SelectsItsRow.Statement (.ldMemVx x) :=
  SelectsItsRow.intro ⟨"LD_MEM_VX", 0xF0FF#16, 0xF055#16⟩ (by decide) rfl (encodeI_and_F0FF ..)

theorem SelectsItsRow.ldVxMem (x : Reg) : SelectsItsRow.Statement (.ldVxMem x) :=
  SelectsItsRow.intro ⟨"LD_VX_MEM", 0xF0FF#16, 0xF065#16⟩ (by decide) rfl (encodeI_and_F0FF ..)

end Sys2Proof.Laws
end

