-- ==== Sys2Proof/Tests/Slice0.lean ====
section
/-! SUPPORT. The model's own tests. Every expected result is written from the spec: the words from the encodings of
spec/30_encoding.md R75 and the vectors of spec/95_test_vectors.md, whose ids are cited (its Part 1 is the source's, its
Parts 2 and 3 are computed by hand from the rules there). The witnesses at the end show, for each statement with
hypotheses, states and operands that meet them together. -/

open Sys2Proof Sys2Proof.Machine Sys2Proof.Claims

namespace Sys2Proof.Tests

/-! ### Decoding: a word written out for every constructor (DE1 to DE24) -/

theorem test_decode_zero : decode 0x00E0#16 = .instr .cls ∧ decode 0x00EE#16 = .instr .ret ∧
    decode 0x0000#16 = .unknown 0x0000#16 ∧ decode 0x01E0#16 = .unknown 0x01E0#16 ∧
    decode 0x0FEE#16 = .unknown 0x0FEE#16 := by decide

theorem test_decode_jumps : decode 0b0001101010111100#16 = .instr (.jp 0xABC#12) ∧
    decode 0b0010111111111111#16 = .instr (.call 0xFFF#12) ∧
    decode 0b1011000100100011#16 = .instr (.jpV0 0x123#12) := by decide

theorem test_decode_skips : decode 0b0011101001111111#16 = .instr (.seImm 10 0x7F#8) ∧
    decode 0b0100101100000000#16 = .instr (.sneImm 11 0x00#8) ∧
    decode 0b0101000100100000#16 = .instr (.seReg 1 2) ∧ decode 0x512F#16 = .instr (.seReg 1 2) ∧
    decode 0b1001101010110000#16 = .instr (.sneReg 10 11) ∧ decode 0x9AB7#16 = .instr (.sneReg 10 11) := by decide

theorem test_decode_strict : decodeWith true 0x512F#16 = .unknown 0x512F#16 ∧
    decodeWith true 0x5120#16 = .instr (.seReg 1 2) ∧ decodeWith true 0x9AB7#16 = .unknown 0x9AB7#16 := by decide

theorem test_decode_loads : decode 0b0110000000010010#16 = .instr (.ldImm 0 0x12#8) ∧
    decode 0b0111000100000101#16 = .instr (.addImm 1 0x05#8) ∧
    decode 0b1010000100100011#16 = .instr (.ldI 0x123#12) ∧
    decode 0b1100000111111111#16 = .instr (.rnd 1 0xFF#8) ∧
    decode 0b1101000100100101#16 = .instr (.drw 1 2 5) ∧ decode 0xD120#16 = .instr (.drw 1 2 0) := by decide

theorem test_decode_alu : decode 0x8AB0#16 = .instr (.ldReg 10 11) ∧ decode 0x8AB1#16 = .instr (.or 10 11) ∧
    decode 0x8AB2#16 = .instr (.and 10 11) ∧ decode 0x8AB3#16 = .instr (.xor 10 11) ∧
    decode 0x8AB4#16 = .instr (.addReg 10 11) ∧ decode 0x8AB5#16 = .instr (.sub 10 11) ∧
    decode 0x8AB6#16 = .instr (.shr 10 11) ∧ decode 0x8AB7#16 = .instr (.subn 10 11) ∧
    decode 0x8ABE#16 = .instr (.shl 10 11) := by decide

theorem test_decode_alu_unused : ∀ n ∈ [8, 9, 10, 11, 12, 13, 15],
    decode (0x8AB0#16 + BitVec.ofNat 16 n) = .unknown (0x8AB0#16 + BitVec.ofNat 16 n) := by decide

theorem test_decode_keys : decode 0xE19E#16 = .instr (.skp 1) ∧ decode 0xE1A1#16 = .instr (.sknp 1) ∧
    decode 0xE19F#16 = .unknown 0xE19F#16 ∧ decode 0xE1A0#16 = .unknown 0xE1A0#16 := by decide

theorem test_decode_category_f : decode 0xF107#16 = .instr (.ldVxDt 1) ∧ decode 0xF10A#16 = .instr (.ldVxK 1) ∧
    decode 0xF115#16 = .instr (.ldDtVx 1) ∧ decode 0xF118#16 = .instr (.ldStVx 1) ∧
    decode 0xF11E#16 = .instr (.addI 1) ∧ decode 0xF129#16 = .instr (.ldF 1) ∧ decode 0xF133#16 = .instr (.ldB 1) ∧
    decode 0xF155#16 = .instr (.ldMemVx 1) ∧ decode 0xF165#16 = .instr (.ldVxMem 1) ∧
    decode 0xF175#16 = .unknown 0xF175#16 ∧ decode 0xFFFF#16 = .unknown 0xFFFF#16 := by decide

theorem test_decode_table_word : decodeTableWord 16 0x8AB6 = some (.shr 10 11) ∧ decodeTableWord 16 0x0000 = none ∧
    decodeBytes [0x60#8, 0x12#8, 0x30#8] = some (.instr (.ldImm 0 0x12#8), [0x30#8]) ∧
    decodeBytes [0x60#8] = none := by decide

/-- DE27. -/
theorem test_disassembly : disassemble [0x60#8, 0x12#8, 0x30#8, 0x12#8, 0x00#8] =
    [⟨0x200, 0x6012#16, .instr (.ldImm 0 0x12#8), "LD V0, 0x12"⟩,
     ⟨0x202, 0x3012#16, .instr (.seImm 0 0x12#8), "SE V0, 0x12"⟩] := by decide

/-- The listings of P2 and P4 in spec/95_test_vectors.md, and R86's form of an unknown word. -/
theorem test_disassembly_texts : describe (decode 0x80E6#16) = "SHR V0, VE" ∧ describe (decode 0x8106#16) = "SHR V1" ∧
    describe (decode 0xD122#16) = "DRW V1, V2, 2" ∧ describe (decode 0xA20C#16) = "LD I, 0x20C" ∧
    describe (decode 0x0000#16) = "DW 0x0000" := by decide

/-! ### Well-formedness: an ill-formed term for each check -/

/-- The parameters with `REFUSE_VF_DEST` on. -/
def refusing : Params := { defaultParams with refuseVfDest := true }

theorem test_ill_formed_vf_destination : (Instr.addReg 15 1).wellFormed refusing = false ∧
    (Instr.sub 15 1).wellFormed refusing = false ∧ (Instr.shr 15 1).wellFormed refusing = false ∧
    (Instr.subn 15 1).wellFormed refusing = false ∧ (Instr.shl 15 1).wellFormed refusing = false := by decide

theorem test_well_formed_otherwise : (Instr.addReg 15 1).wellFormed defaultParams = true ∧
    (Instr.addReg 14 1).wellFormed refusing = true ∧ (Instr.or 15 1).wellFormed refusing = true := by decide

theorem test_ill_formed_params : ({ defaultParams with soundInactive := 0 } : Params).wellFormed = false ∧
    defaultParams.wellFormed = true := by decide

theorem romFits_replicate (n : Nat) : romFits (List.replicate n 0#8) = decide (n ≤ 3584) := by
  rw [romFits, List.length_replicate, maxRom]

/-- RS3, RS4. -/
theorem test_ill_formed_rom : romFits (List.replicate 3585 0#8) = false ∧ romFits (List.replicate 3584 0#8) = true := by
  rw [romFits_replicate, romFits_replicate]; decide

/-! ### One step of each instruction -/

/-- The state after reset with the word `w` at `PC`. -/
def at200 (w : Nat) : State := State.reset.withFetchWord 16 w

/-- `s` with bytes put into registers. -/
def regs (l : List (Reg × Byte)) (s : State) : State := l.foldl (fun t p => t.setReg p.1 p.2) s

/-- `s` with bytes put into memory. -/
def bytes (a : Nat) (l : List Byte) (s : State) : State := s.storeBytes a l

/-- One `STEP`, looked at through `f`. -/
def look {α : Type} (f : State → α) (s : State) : Option α :=
  match step s with
  | .next t => some (f t)
  | .fault _ => none
  | .refused _ => none

/-- The latched cause with its code and the address of the instruction. -/
def cause (s : State) : Option (Nat × Fault × Word) := s.fault.map fun r => (r.cause.code, r.cause, r.pc)

/-- DR1: the flag is not written. -/
theorem test_cls : look (fun t => (t.fb, t.redraw, t.reg 15, t.pc))
    (regs [(15, 1#8)] { at200 0x00E0 with fb := Vector.replicate 32 0xFFFF#64 }) =
    some (Vector.replicate 32 0#64, true, 1#8, 0x202#16) := by decide

/-- CF10. -/
theorem test_ret : look (fun t => (t.sp, t.pc, t.stack[0]))
    { at200 0x00EE with sp := 1, stack := (Vector.replicate 16 0#16).set 0 0x208#16 } =
    some (0, 0x208#16, 0x208#16) := by decide

/-- CF11. -/
theorem test_ret_empty : look (fun t => (cause t, t.pc, t.sp)) (at200 0x00EE) =
    some (some (3, .stackUnderflow, 0x200#16), 0x200#16, 0) := by decide

/-- CF3. -/
theorem test_jp : look State.pc (at200 0x1FFE) = some 0xFFE#16 := by decide

/-- CF7. -/
theorem test_call : look (fun t => (t.stack[15], t.sp, t.pc)) { at200 0x2300 with sp := 15 } =
    some (0x202#16, 16, 0x300#16) := by decide

/-- CF8. -/
theorem test_call_full : look (fun t => (cause t, t.pc, t.sp)) { at200 0x2300 with sp := 16 } =
    some (some (2, .stackOverflow, 0x200#16), 0x200#16, 16) := by decide

/-- CF15, CF16. -/
theorem test_se_imm : look State.pc (regs [(0, 0x12#8)] (at200 0x3012)) = some 0x204#16 ∧
    look State.pc (regs [(0, 0x13#8)] (at200 0x3012)) = some 0x202#16 := by decide

/-- CF17, CF18. -/
theorem test_sne_imm : look State.pc (regs [(0, 0x12#8)] (at200 0x4012)) = some 0x202#16 ∧
    look State.pc (regs [(0, 0x13#8)] (at200 0x4012)) = some 0x204#16 := by decide

/-- CF22, CF20. -/
theorem test_se_reg : look State.pc (regs [(1, 7#8), (2, 7#8)] (at200 0x512F)) = some 0x204#16 ∧
    look State.pc (regs [(1, 7#8), (2, 8#8)] (at200 0x5120)) = some 0x202#16 := by decide

/-- CF23, CF24. -/
theorem test_sne_reg : look State.pc (regs [(1, 7#8), (2, 8#8)] (at200 0x9120)) = some 0x204#16 ∧
    look State.pc (regs [(1, 7#8), (2, 7#8)] (at200 0x9120)) = some 0x202#16 := by decide

/-- CF13, CF14. -/
theorem test_jp_v0 : look State.pc (regs [(0, 0xFF#8)] (at200 0xBFFF)) = some 0x10FE#16 ∧
    look State.pc (regs [(3, 0x55#8)] (at200 0xB300)) = some 0x300#16 := by decide

/-- AL2. -/
theorem test_ld_imm : look (State.reg · 15) (regs [(15, 1#8)] (at200 0x6F05)) = some 5#8 := by decide

/-- AL3, AL4. -/
theorem test_add_imm : look (fun t => (t.reg 1, t.reg 15)) (regs [(1, 0xFE#8)] (at200 0x7105)) = some (3#8, 0#8) ∧
    look (fun t => (t.reg 1, t.reg 15)) (regs [(1, 0xFF#8)] (at200 0x7101)) = some (0#8, 0#8) := by decide

/-- AL8. -/
theorem test_ld_reg : look (fun t => (t.reg 1, t.reg 2)) (regs [(2, 0x7F#8)] (at200 0x8120)) =
    some (0x7F#8, 0x7F#8) := by decide

/-- AL9, AL10, AL11. -/
theorem test_or : look (fun t => (t.reg 1, t.reg 15)) (regs [(1, 0xF0#8), (2, 0x0F#8), (15, 1#8)] (at200 0x8121)) =
    some (0xFF#8, 1#8) := by decide

theorem test_and : look (fun t => (t.reg 1, t.reg 15)) (regs [(1, 0xF0#8), (2, 0x3C#8), (15, 1#8)] (at200 0x8122)) =
    some (0x30#8, 1#8) := by decide

theorem test_xor : look (fun t => (t.reg 1, t.reg 15)) (regs [(1, 0xF0#8), (2, 0x3C#8), (15, 1#8)] (at200 0x8123)) =
    some (0xCC#8, 1#8) := by decide

/-- AL13 (the source's S3), AL14. -/
theorem test_add_reg : look (fun t => (t.reg 1, t.reg 15)) (regs [(1, 0xFF#8), (2, 1#8)] (at200 0x8124)) =
    some (0#8, 1#8) ∧
    look (fun t => (t.reg 1, t.reg 15)) (regs [(1, 0x80#8), (2, 0x7F#8), (15, 1#8)] (at200 0x8124)) =
    some (0xFF#8, 0#8) := by decide

/-- AL19, AL20: VF as destination and as source. -/
theorem test_add_reg_vf : look (State.reg · 15) (regs [(15, 1#8), (1, 1#8)] (at200 0x8F14)) = some 0#8 ∧
    look (fun t => (t.reg 1, t.reg 15)) (regs [(1, 0x10#8), (15, 5#8)] (at200 0x81F4)) = some (0x15#8, 0#8) := by
  decide

/-- AL21, AL23. -/
theorem test_sub : look (fun t => (t.reg 1, t.reg 15)) (regs [(1, 1#8), (2, 2#8)] (at200 0x8125)) =
    some (0xFF#8, 0#8) ∧
    look (fun t => (t.reg 1, t.reg 15)) (regs [(1, 5#8), (2, 5#8)] (at200 0x8125)) = some (0#8, 1#8) := by decide

/-- AL28, AL29. -/
theorem test_sub_vf : look (State.reg · 15) (regs [(15, 3#8), (1, 5#8)] (at200 0x8F15)) = some 0#8 ∧
    look (fun t => (t.reg 1, t.reg 15)) (regs [(1, 0x10#8), (15, 1#8)] (at200 0x81F5)) = some (0x0F#8, 1#8) := by decide

/-- AL30, AL31. -/
theorem test_subn : look (fun t => (t.reg 1, t.reg 15)) (regs [(1, 1#8), (2, 2#8)] (at200 0x8127)) =
    some (1#8, 1#8) ∧
    look (fun t => (t.reg 1, t.reg 15)) (regs [(1, 2#8), (2, 1#8)] (at200 0x8127)) = some (0xFF#8, 0#8) := by decide

/-- AL36, AL41 with both values of `SHIFT_SRC`. -/
theorem test_shr : look (fun t => (t.reg 1, t.reg 15)) (regs [(1, 5#8)] (at200 0x8106)) = some (2#8, 1#8) ∧
    look (fun t => (t.reg 1, t.reg 2, t.reg 15)) (regs [(1, 4#8), (2, 0xFF#8)] (at200 0x8126)) =
    some (2#8, 0xFF#8, 0#8) ∧
    look (fun t => (t.reg 1, t.reg 15)) (regs [(1, 4#8), (2, 0xFF#8)]
      { at200 0x8126 with params := { defaultParams with shiftSrc := .y } }) = some (0x7F#8, 1#8) := by decide

/-- AL44, AL48 with `SHIFT_SRC` = Y. -/
theorem test_shl : look (fun t => (t.reg 1, t.reg 15)) (regs [(1, 0x81#8)] (at200 0x810E)) = some (2#8, 1#8) ∧
    look (fun t => (t.reg 1, t.reg 15)) (regs [(1, 1#8), (2, 0x80#8)]
      { at200 0x812E with params := { defaultParams with shiftSrc := .y } }) = some (0#8, 1#8) := by decide

/-- AL42, AL50: VF as destination of a shift. -/
theorem test_shift_vf : look (State.reg · 15) (regs [(15, 3#8)] (at200 0x8F06)) = some 1#8 ∧
    look (State.reg · 15) (regs [(15, 1#8)] (at200 0x8F0E)) = some 0#8 := by decide

/-- AL51, AL52: whatever the draw, the masked bits are 0. -/
theorem test_rnd (s : State) : ∃ t, exec (.rnd 1 0x00#8) s = .next t ∧ t.reg 1 = 0#8 := by
  refine ⟨_, rfl, ?_⟩
  simp [State.countDraw, State.advance, State.setReg, State.reg]

/-- IM2. -/
theorem test_ld_i : look State.i (at200 0xAFFF) = some 0xFFF#16 := by decide

/-- IM3, IM4. -/
theorem test_add_i : look (fun t => (t.i, t.reg 15)) (regs [(1, 5#8)] { at200 0xF11E with i := 0x0FFE#16 }) =
    some (0x1003#16, 0#8) ∧
    look State.i (regs [(1, 1#8)] { at200 0xF11E with i := 0xFFFF#16 }) = some 0#16 := by decide

/-- IM6, IM9. -/
theorem test_ld_f : look State.i (regs [(2, 0x0A#8)] (at200 0xF229)) = some 50#16 ∧
    look State.i (regs [(2, 0xFF#8)] (at200 0xF229)) = some 1275#16 := by decide

/-- IM16. -/
theorem test_ld_b : look (fun t => (t.readByte 0xFFC, t.readByte 0xFFD, t.readByte 0xFFE, t.readByte 0xFFF, t.i))
    (regs [(2, 123#8)] { at200 0xF233 with i := 0xFFD#16 }) = some (0#8, 1#8, 2#8, 3#8, 0xFFD#16) := by decide

/-- IM17. -/
theorem test_ld_b_out_of_range : look (fun t => (cause t, t.mem == (at200 0xF233).mem, t.pc))
    { at200 0xF233 with i := 0xFFE#16 } = some (some (5, .memOutOfRange 0x1000, 0x200#16), true, 0x200#16) := by decide

/-- IM19. -/
theorem test_ld_mem_vx : look (fun t => (t.readByte 0x400, t.readByte 0x401, t.readByte 0x402, t.readByte 0x403, t.i))
    (regs [(1, 6#8), (2, 1#8), (3, 9#8)] { at200 0xF255 with i := 0x400#16 }) =
    some (0#8, 6#8, 1#8, 0#8, 0x400#16) := by decide

/-- IM22. -/
theorem test_ld_mem_vx_out_of_range : look (fun t => (cause t, t.readByte 0xFF1))
    (regs [(0, 7#8)] { at200 0xFF55 with i := 0xFF1#16 }) =
    some (some (5, .memOutOfRange 0x1000, 0x200#16), 0#8) := by decide

/-- IM24. -/
theorem test_ld_vx_mem : look (fun t => (t.reg 0, t.reg 1, t.reg 2, t.i)) (at200 0xF165) =
    some (0xF0#8, 0x90#8, 0#8, 0#16) := by decide

/-- IM25. -/
theorem test_ld_vx_mem_font : look State.v (at200 0xFF65) =
    some #v[0xF0#8, 0x90#8, 0x90#8, 0x90#8, 0xF0#8, 0x20#8, 0x60#8, 0x20#8, 0x20#8, 0x70#8, 0xF0#8, 0x10#8, 0xF0#8,
      0x80#8, 0xF0#8, 0xF0#8] := by decide

/-- DR5: cells 2046 and 2047 are columns 62 and 63 of row 31; cells 62 and 5 are columns 62 and 5 of row 0. -/
theorem test_drw_wraps : look (fun t => (t.fb, t.reg 15, t.redraw))
    (regs [(1, 62#8), (2, 31#8)] (bytes 0x300 [0xC0#8, 0x81#8] { at200 0xD122 with i := 0x300#16 })) =
    some (((Vector.replicate 32 0#64).set 31 (1#64 <<< 62 ||| 1#64 <<< 63)).set 0 (1#64 <<< 62 ||| 1#64 <<< 5),
      0#8, true) := by decide +kernel

/-- DR9: one erased cell suffices. -/
theorem test_drw_collision : look (fun t => (t.fb, t.fb.flat 0, t.fb.flat 1, t.reg 15))
    (bytes 0x300 [0xC0#8] { at200 0xD121 with i := 0x300#16, fb := Framebuffer.clear.xorCell 0 0 true }) =
    some ((Vector.replicate 32 0#64).set 0 (1#64 <<< 1), false, true, 1#8) := by decide +kernel

/-- KT1, KT4. -/
theorem test_skp : look State.pc (regs [(3, 7#8)] { at200 0xE39E with key := (Vector.replicate 16 false).set 7 true }) =
    some 0x204#16 ∧
    look cause (regs [(3, 0x17#8)] { at200 0xE39E with key := (Vector.replicate 16 false).set 7 true }) =
    some (some (6, .keyIndexOutOfRange 23#8, 0x200#16)) := by decide

/-- KT5, KT6. -/
theorem test_sknp : look State.pc (regs [(3, 7#8)] { at200 0xE3A1 with key := (Vector.replicate 16 false).set 7 true }) =
    some 0x202#16 ∧ look State.pc (regs [(3, 7#8)] (at200 0xE3A1)) = some 0x204#16 := by decide

/-- KT8. -/
theorem test_wait_key_holds : look (fun t => (t.pc, t.reg 1, t.redraw))
    (regs [(1, 5#8)] { at200 0xF10A with redraw := true }) = some (0x200#16, 5#8, false) := by decide

/-- KT10. -/
theorem test_wait_key_lowest : look (fun t => (t.pc, t.reg 1))
    { at200 0xF10A with key := ((Vector.replicate 16 false).set 9 true).set 3 true } = some (0x202#16, 3#8) := by decide

/-- KT13. -/
theorem test_ld_vx_dt : look (fun t => (t.reg 2, t.dt)) { at200 0xF207 with dt := 0x3C#8 } =
    some (0x3C#8, 0x3C#8) := by decide

/-- KT15. -/
theorem test_ld_dt_vx : look State.dt (regs [(0, 60#8)] (at200 0xF015)) = some 60#8 := by decide

/-- KT18: 0 is not the sentinel. -/
theorem test_ld_st_vx : look State.st (at200 0xF018) = some (.count 0#8) ∧
    look State.st (regs [(0, 5#8)] { at200 0xF018 with st := .count 1#8 }) = some (.count 5#8) := by decide

/-! ### The cycle, the operations, reset -/

/-- CF29, CF31. -/
theorem test_step_faults : look cause (at200 0x0000) = some (some (1, .illegalInstruction 0#16, 0x200#16)) ∧
    look cause { at200 0x0000 with pc := 0xFFF#16 } =
      some (some (4, .fetchOutOfRange 0xFFF#16, 0xFFF#16)) := by decide

/-- The `fault` output of R184: once, in the `STEP` that latches it. -/
theorem test_fault_output : perform .step State.reset =
      .next (State.reset.raise (.illegalInstruction 0#16), [.faulted ⟨.illegalInstruction 0#16, 0x200#16⟩]) ∧
    perform .step (State.reset.raise (.illegalInstruction 0#16)) =
      .next (State.reset.raise (.illegalInstruction 0#16), []) := ⟨rfl, rfl⟩

/-- CF32, CF33. -/
theorem test_step_redraw : look State.redraw { at200 0x6005 with redraw := true } = some false ∧
    look State.redraw { at200 0x6005 with fault := some ⟨.stackOverflow, 0x200#16⟩, redraw := true } = some true := by
  decide

/-- An operation, looked at through `f`, with its outputs. -/
def observe {α : Type} (f : State → α) (o : Op) (s : State) : Option (α × List Output) :=
  match perform o s with
  | .next (t, out) => some (f t, out)
  | .fault _ => none
  | .refused _ => none

/-- TK4, TK5, TK7. -/
theorem test_tick : observe (fun t => (t.dt, t.st)) .tick { State.reset with st := .count 2#8 } =
      some ((0#8, .count 1#8), []) ∧
    observe (fun t => (t.dt, t.st)) .tick { State.reset with st := .count 1#8 } = some ((0#8, .count 0#8), []) ∧
    observe (fun t => (t.dt, t.st)) .tick { State.reset with dt := 3#8, st := .count 0#8 } =
      some ((2#8, .inactive), [.soundTrigger]) := by decide

/-- EV1, EV4. -/
theorem test_set_key : observe State.key (.setKey 7 true) State.reset =
      some ((Vector.replicate 16 false).set 7 true, []) ∧
    perform (.setKey 16 true) State.reset = .refused .keyIndexOutsideContract := ⟨by decide, rfl⟩

/-- EV5, EV6. -/
theorem test_sample : observe State.redraw .sample { State.reset with redraw := true } =
      some (false, [.snapshot (Vector.replicate 32 0#64)]) ∧
    observe State.redraw .sample State.reset = some (false, []) := by decide

/-- RC2, RC4, RC5, RC8. -/
theorem test_run_control : observe State.run .pause { State.reset with run := .initial } = some (.initial, []) ∧
    observe State.run .pause State.reset = some (.paused, [.lifecycle .paused]) ∧
    observe State.run .pause { State.reset with run := .paused } = some (.paused, []) ∧
    observe State.run .resume State.reset = some (.running, []) ∧
    perform .restart { State.reset with rom := none } = .refused .noRememberedRom := by
  refine ⟨by decide, by decide, by decide, by decide, rfl⟩

/-- RS2. -/
theorem test_reset_rom : observe (fun t => (t.readByte 0x1FF, t.readByte 0x200, t.readByte 0x203, t.readByte 0x204, t.pc))
    (.reset [0x60#8, 0x12#8, 0x30#8, 0x12#8]) State.reset =
    some ((0#8, 0x60#8, 0x12#8, 0#8, 0x200#16), []) := by decide

/-- The defaults of R4. -/
theorem test_default_parameters : State.reset.params.cycleHz = 500 ∧ Config.timerHz = 60 ∧
    State.reset.params.soundInactive = -1 ∧ State.reset.params.shiftSrc = .x ∧ State.reset.params.keySelect = .lowest ∧
    State.reset.params.strict59 = false ∧ State.reset.params.refuseVfDest = false := by decide

/-- RS6. -/
theorem test_reset_font : State.reset.readByte 0 = 0xF0#8 ∧ State.reset.readByte 5 = 0x20#8 ∧
    State.reset.readByte 75 = 0xF0#8 ∧ State.reset.readByte 77 = 0xF0#8 ∧ State.reset.readByte 79 = 0x80#8 ∧
    State.reset.readByte 80 = 0#8 := by decide

/-- FT1, FT2. -/
theorem test_faulted : observe State.dt .tick { State.reset with dt := 5#8, fault := some ⟨.stackOverflow, 0x200#16⟩ } =
      some (5#8, []) ∧
    observe State.fault (.reset []) { State.reset with fault := some ⟨.stackOverflow, 0x200#16⟩ } =
      some (none, []) := by decide

/-! ### Witnesses: for each statement with hypotheses, states and operands that meet them -/

/-- A state with a latched fault. -/
def faulted : State := { State.reset with fault := some ⟨.stackOverflow, 0x200#16⟩ }

/-- A state at power-on. -/
def powered : State := { State.reset with ready := false, run := .initial, rom := none }

/-- A state in which `REFUSE_VF_DEST` is on. -/
def refusingState : State := { State.reset with params := refusing }

/-- A state with one key down. -/
def keyState (k : Reg) : State := { State.reset with key := (Vector.replicate 16 false).set k.val true }

theorem witness_EncodeOfDecodeIsTheWord : decodeWith false 0x512F#16 = .instr (.seReg 1 2) ∧
    decodeWith true 0x8AB6#16 = .instr (.shr 10 11) := by decide

theorem witness_DecodeFollowsTheOpcodeRows :
    (⟨"SHL", 0xF00F#16, 0x800E#16⟩ : OpRow) ∈ opRows ∧
    (⟨"SHL", 0xF00F#16, 0x800E#16⟩ : OpRow).selects 0x8ABE#16 = true ∧
    ∀ r ∈ opRows, r.selects 0x8ABF#16 = false := by decide

theorem witness_LowNibbleOfFiveAndNineIsIgnored : opField 0x512F#16 = 0x5#4 ∧ opField 0x5120#16 = 0x5#4 ∧
    opField 0x9AB7#16 = 0x9#4 := by decide

/-- A live state at a jump; a `STEP` that latches a fault, and one that does not; a `STEP` that is refused. -/
theorem witness_StepRunsTheDecodedInstruction : (∃ s : State, s.ready = true ∧ s.fault = none ∧ s.pc.toNat ≤ 4094 ∧
    decodeWith s.params.strict59 (wordOfBytes (s.readByte s.pc.toNat) (s.readByte (s.pc.toNat + 1))) =
      .instr (.jp 0xFFE#12)) ∧
    (∃ s t : State, s.run ≠ .paused ∧ step s = .next t ∧ s.fault = none ∧
      t.fault = some ⟨.illegalInstruction 0#16, 0x200#16⟩) ∧
    (∃ s t : State, s.run ≠ .paused ∧ step s = .next t ∧ t.fault = none) ∧
    powered.run ≠ .paused ∧ step powered = .refused .beforeReset :=
  ⟨⟨at200 0x1FFE, by decide⟩, ⟨State.reset, _, by decide, rfl, rfl, by decide⟩,
    ⟨at200 0x1FFE, _, by decide, rfl, by decide⟩, by decide, rfl⟩

/-- One state for each clause: not ready; faulted; `PC` just out of range; an unknown word at the last legal `PC`. -/
theorem witness_StepChecksInTheSpecsOrder : powered.ready = false ∧ (faulted.ready = true ∧ faulted.fault ≠ none) ∧
    (∃ s : State, s.ready = true ∧ s.fault = none ∧ 4094 < s.pc.toNat) ∧
    (∃ s : State, s.ready = true ∧ s.fault = none ∧ s.pc.toNat ≤ 4094 ∧
      decodeWith s.params.strict59 (wordOfBytes (s.readByte s.pc.toNat) (s.readByte (s.pc.toNat + 1))) =
        .unknown 0#16) :=
  ⟨by decide, by decide, ⟨{ State.reset with pc := 4095#16 }, by decide⟩, ⟨{ State.reset with pc := 4094#16 }, by decide⟩⟩

theorem witness_RaisedFaultIsPrecise : ∃ (s t : State) (r : FaultRecord), s.fault = none ∧ step s = .next t ∧
    t.fault = some r := ⟨State.reset, _, _, rfl, rfl, rfl⟩

theorem witness_FaultsAreRaisedExactlyByTheTable : State.reset.fault = none ∧
    (∃ t, exec .ret State.reset = .next t ∧ t.fault ≠ none) ∧
    (∃ t, exec (.call 0#12) State.reset = .next t ∧ t.fault = none) := ⟨rfl, ⟨_, rfl, by decide⟩, ⟨_, rfl, by decide⟩⟩

theorem witness_FaultedMachineIsFrozen : ∃ t out, faulted.fault ≠ none ∧
    (∀ o ∈ [Op.step, .tick, .setKey 1 true, .sample, .pause], NoReset o) ∧
    runOps [.step, .tick, .setKey 1 true, .sample, .pause] faulted = .next (t, out) ∧ faulted.ready = true ∧
    faulted.run ≠ .paused ∧ (List.replicate 3584 0#8).length ≤ 3584 :=
  ⟨_, _, by decide, by simp [NoReset], rfl, rfl, by decide, List.length_replicate.le⟩

theorem witness_StepSetsRedrawOnlyForDrawAndClear : ∃ t, (at200 0xD120).ready = true ∧ (at200 0xD120).fault = none ∧
    (at200 0xD120).pc.toNat ≤ 4094 ∧ step (at200 0xD120) = .next t ∧
    decodeWith false (wordOfBytes ((at200 0xD120).readByte 0x200) ((at200 0xD120).readByte 0x201)) =
      .instr (.drw 1 2 0) := ⟨_, by decide, by decide, by decide, rfl, by decide⟩

/-- The state after reset meets the invariant; so does it with a word placed, from which a `STEP` answers. -/
theorem witness_StepKeepsTheInvariant : Inv (at200 0x6005) ∧ ∃ t, step (at200 0x6005) = .next t := by
  refine ⟨⟨fun _ => ⟨by decide, by decide, by decide, ?_, ?_⟩, fun _ => rfl, ?_⟩, _, rfl⟩
  · intro r h; cases h
  · intro h; cases h
  · intro r h; cases h; decide

theorem witness_EveryOperationKeepsTheInvariant : PowerOn powered ∧
    ∃ t out, perform (.start []) powered = .next (t, out) ∧ Reachable t :=
  ⟨⟨rfl, rfl, rfl⟩, _, _, rfl, .perform powered _ (.start []) _ (.powerOn powered ⟨rfl, rfl, rfl⟩) rfl⟩

theorem witness_PlacedWordIsTheOneStepRuns : Memory.wf State.reset.params.font State.reset.mem = true ∧
    State.reset.pc.toNat ≤ 4094 ∧ decodeWith State.reset.params.strict59 0x6005#16 = .instr (.ldImm 0 5#8) := by decide

/-- Both clauses at their boundaries: 15 entries and 16. -/
theorem witness_CallPushesTheReturnAddress : (∃ s : State, s.sp.val < 16 ∧ s.sp.val = 15) ∧ (∃ s : State, s.sp.val = 16) :=
  ⟨⟨{ State.reset with sp := 15 }, by decide⟩, ⟨{ State.reset with sp := 16 }, by decide⟩⟩

/-- Each clause at its boundaries: one entry, 16 entries, none. -/
theorem witness_ReturnPopsTheNewestEntry : (∃ s : State, s.sp.val = 0 + 1) ∧ (∃ s : State, s.sp.val = 15 + 1) ∧
    State.reset.sp.val = 0 :=
  ⟨⟨{ State.reset with sp := 1 }, by decide⟩, ⟨{ State.reset with sp := 16 }, by decide⟩, by decide⟩

theorem witness_ReturnAfterCallResumesAfterTheCall : State.reset.sp.val < 16 := by decide

/-- The destination VF in the default machine, and another destination where the option refuses VF. -/
theorem witness_AddRegisterWrapsAndSetsCarry : (Instr.addReg 15 1).wellFormed State.reset.params = true ∧
    (Instr.addReg 14 15).wellFormed refusingState.params = true := by decide

theorem witness_SubtractsWrapAndSetNoBorrow : (Instr.sub 15 1).wellFormed State.reset.params = true ∧
    (Instr.subn 14 15).wellFormed refusingState.params = true := by decide

theorem witness_ShiftsMoveOneBitIntoVf : (Instr.shr 15 1).wellFormed State.reset.params = true ∧
    (Instr.shl 14 15).wellFormed refusingState.params = true ∧
    0 = (match State.reset.params.shiftSrc with
      | .x => (State.reset.reg 15).toNat
      | .y => (State.reset.reg 1).toNat) := by decide

theorem witness_OnlyTheVfOptionEverRefuses : (Instr.shl 15 0).wellFormed refusingState.params = false ∧
    (Instr.shl 15 0).wellFormed State.reset.params = true := by decide

/-- Each data access with its last byte at 4095, the last address in range, and at 4096, the first out of range. -/
theorem witness_BcdStoresThreeDigits : (∃ s : State, Memory.wf s.params.font s.mem = true ∧ s.i.toNat + 2 = 4095) ∧
    (∃ s : State, 4095 < s.i.toNat + 2 ∧ s.i.toNat + 2 = 4096) :=
  ⟨⟨{ State.reset with i := 0xFFD#16 }, by decide⟩, ⟨{ State.reset with i := 0xFFE#16 }, by decide⟩⟩

theorem witness_RegisterDumpStoresV0ToVx : (∃ s : State, Memory.wf s.params.font s.mem = true ∧
    s.i.toNat + (15 : Reg).val = 4095) ∧ (∃ s : State, s.i.toNat + (15 : Reg).val = 4096) :=
  ⟨⟨{ State.reset with i := 0xFF0#16 }, by decide⟩, ⟨{ State.reset with i := 0xFF1#16 }, by decide⟩⟩

theorem witness_RegisterLoadReadsV0ToVx : (∃ s : State, s.i.toNat + (14 : Reg).val = 4095 ∧ (14 : Reg).val < (15 : Reg).val) ∧
    (∃ s : State, s.i.toNat + (15 : Reg).val = 4096) :=
  ⟨⟨{ State.reset with i := 0xFF1#16 }, by decide⟩, ⟨{ State.reset with i := 0xFF1#16 }, by decide⟩⟩

theorem witness_LoadAfterDumpRestoresRegisters : ∃ s : State, Memory.wf s.params.font s.mem = true ∧
    s.i.toNat + (15 : Reg).val ≤ 4095 := ⟨{ State.reset with i := 0xFF0#16 }, by decide⟩

theorem witness_StoreIsSeenByTheNextFetch : (∃ s : State, Memory.wf s.params.font s.mem = true ∧ s.i = s.pc + 2#16 ∧
    1 ≤ (1 : Reg).val ∧ s.i.toNat + (1 : Reg).val = 4095) ∧
    (∃ s : State, Memory.wf s.params.font s.mem = true ∧ s.i = s.pc + 2#16 ∧ s.i.toNat + 2 = 4095) :=
  ⟨⟨{ State.reset with pc := 0xFFC#16, i := 0xFFE#16 }, by decide⟩,
    ⟨{ State.reset with pc := 0xFFB#16, i := 0xFFD#16 }, by decide⟩⟩

/-- The boundaries: no rows at any `I`, 15 rows that end at 4095, and 15 rows that end at 4096. -/
theorem witness_DrawXorsTheSpriteAndReportsCollision : (∃ s : State, InRange s 0 ∧ s.i = 0xFFFF#16) ∧
    (∃ s : State, InRange s 15 ∧ s.i.toNat + 15 - 1 = 4095) ∧ (∃ s : State, ¬InRange s 15 ∧ s.i.toNat + 15 - 1 = 4096) :=
  ⟨⟨{ State.reset with i := 0xFFFF#16 }, Or.inl rfl, rfl⟩,
    ⟨{ State.reset with i := 0xFF1#16 }, Or.inr (by decide), by decide⟩,
    ⟨{ State.reset with i := 0xFF2#16 }, by unfold InRange; decide, by decide⟩⟩

/-- With the glyph of 0 at `I` = 0, a cell under its first pixel is lit and one beside it is not. -/
theorem witness_SpriteLit : SpriteLit State.reset 1 2 5 0 0 ∧ ¬SpriteLit State.reset 1 2 0 0 0 := by
  refine ⟨⟨0, 0, by decide, by decide, by decide, by decide, by decide⟩, ?_⟩
  rintro ⟨row, _, h, _⟩
  omega

theorem witness_DrawingTwiceRestoresTheFramebuffer : (1 : Reg) ≠ 15 ∧ (2 : Reg) ≠ 15 ∧ InRange State.reset 5 :=
  ⟨by decide, by decide, Or.inr (by decide)⟩

/-- Both clauses at their boundary: the index 15 and the index 16. -/
theorem witness_KeySkipsTestTheLatch : (∃ s : State, (s.reg 3).toNat = (15 : Reg).val) ∧
    (∃ s : State, 15 < (s.reg 3).toNat ∧ (s.reg 3).toNat = 16) :=
  ⟨⟨regs [(3, 15#8)] State.reset, by decide⟩, ⟨regs [(3, 16#8)] State.reset, by decide⟩⟩

theorem witness_WaitForKeyHoldsOrReportsAPressedKey : (∀ k, State.reset.keyDown k = false) ∧
    (keyState 15).keyDown 15 = true ∧ (keyState 15).params.keySelect = .lowest := by decide

theorem witness_WaitForKeyPollsUntilAKeyIsDown : (at200 0xF10A).ready = true ∧ (at200 0xF10A).fault = none ∧
    (at200 0xF10A).pc.toNat ≤ 4094 ∧
    decodeWith (at200 0xF10A).params.strict59 (wordOfBytes ((at200 0xF10A).readByte (at200 0xF10A).pc.toNat)
      ((at200 0xF10A).readByte ((at200 0xF10A).pc.toNat + 1))) = .instr (.ldVxK 1) ∧
    ∀ j, (at200 0xF10A).keyDown j = false := by decide

/-- The three clauses: counting, at 0, idle. -/
theorem witness_TickCountsBothTimers : State.reset.ready = true ∧ State.reset.fault = none ∧
    State.reset.run ≠ .paused ∧ State.reset.st = .inactive ∧
    (∃ s : State, s.ready = true ∧ s.fault = none ∧ s.run ≠ .paused ∧ s.st = .count 1#8 ∧ 0 < (1#8).toNat) ∧
    (∃ s : State, s.ready = true ∧ s.fault = none ∧ s.run ≠ .paused ∧ s.st = .count 0#8) :=
  ⟨by decide, by decide, by decide, by decide, ⟨{ State.reset with st := .count 1#8 }, by decide⟩,
    ⟨{ State.reset with st := .count 0#8 }, by decide⟩⟩

/-- The clauses at their boundary, `k` = 255 and `k` = 256 for `n` = 255. -/
theorem witness_SoundTriggerFiresOnceAfterItsCount : (∃ s : State, s.ready = true ∧ s.fault = none ∧ s.run ≠ .paused ∧
    s.st = .count 255#8) ∧ 255 ≤ (255#8).toNat ∧ (255#8).toNat < 256 :=
  ⟨⟨{ State.reset with st := .count 255#8 }, by decide⟩, by decide, by decide⟩

theorem witness_OnlyDestinationsChange : ∃ t, exec (.addReg 1 2) State.reset = .next t ∧
    (2 : Reg) ∉ destinations (.addReg 1 2) := ⟨_, rfl, by decide⟩

theorem witness_EachInstructionLeavesTheRestAlone : ∃ t, exec (.addReg 1 2) State.reset = .next t := ⟨_, rfl⟩

/-- One instruction of each class, and one that raises. -/
theorem witness_ProgramCounterMovesByClass : State.reset.fault = none ∧ pcClass (.addI 1) = .next ∧
    pcClass (.skp 1) = .skip ∧ pcClass (.ldVxK 1) = .hold ∧
    (∃ t, exec (.addI 1) State.reset = .next t ∧ t.fault = none) ∧
    (∃ t, exec (.skp 1) State.reset = .next t ∧ t.fault = none) ∧
    (∃ t, exec (.ldVxK 1) State.reset = .next t) ∧ (∃ t, exec .ret State.reset = .next t ∧ t.fault ≠ none) :=
  ⟨by decide, by decide, by decide, by decide, ⟨_, rfl, by decide⟩, ⟨_, rfl, by decide⟩, ⟨_, rfl⟩, ⟨_, rfl, by decide⟩⟩

/-- An instruction of each clause: none of the writers, LD ST, CLS, a draw in range and one out of range. -/
theorem witness_NoInstructionReadsSoundTimerOrRedraw : (∃ t, exec (.ldVxDt 1) State.reset = .next t) ∧
    (∃ t, exec (.ldStVx 1) State.reset = .next t) ∧ (∃ t, exec .cls State.reset = .next t) ∧
    (∃ t, exec (.drw 1 2 15) State.reset = .next t ∧ InRange State.reset 15) ∧
    ∃ s t : State, exec (.drw 1 2 15) s = .next t ∧ ¬InRange s 15 :=
  ⟨⟨_, rfl⟩, ⟨_, rfl⟩, ⟨_, rfl⟩, ⟨_, rfl, Or.inr (by decide)⟩,
    ⟨{ State.reset with i := 0xFF2#16 }, _, rfl, by unfold InRange; decide⟩⟩

theorem witness_StackIsNotReadable : ∃ t t', exec .ret State.reset = .next t ∧
    exec .ret { State.reset with stack := State.reset.stack, sp := 16 } = .next t' := ⟨_, _, rfl, rfl⟩

theorem witness_SelfJumpEndsTheRun : (at200 0x1200).ready = true ∧ Ended (at200 0x1200) :=
  ⟨by decide, by decide, by decide, 0x200#12, by decide, by decide⟩

/-- Both clauses at their boundary: the index 15 and the index 16. -/
theorem witness_SetKeyWritesOneFlag : State.reset.ready = true ∧ State.reset.fault = none ∧ (15 : Reg).val = 15 ∧
    15 < 16 := by decide

theorem witness_SamplePublishesOnlyWhenRedrawIsSet : State.reset.ready = true ∧ State.reset.fault = none ∧
    State.reset.run ≠ .paused ∧ State.reset.redraw = false ∧
    (∃ s : State, s.ready = true ∧ s.fault = none ∧ s.run ≠ .paused ∧ s.redraw = true) :=
  ⟨by decide, by decide, by decide, by decide, ⟨{ State.reset with redraw := true }, by decide⟩⟩

theorem witness_EventsLeaveTheProgramsStateAlone : NoReset .tick ∧ Op.tick ≠ .step ∧
    ∃ t out, perform .tick State.reset = .next (t, out) := ⟨trivial, by decide, _, _, rfl⟩

/-- A `STEP` at the default rate; another rate is another state. -/
theorem witness_NothingDependsOnTheCycleRate : (∃ t out, perform .step (at200 0xF133) = .next (t, out)) ∧
    { (at200 0xF133) with params := { (at200 0xF133).params with cycleHz := 700 } } ≠ at200 0xF133 :=
  ⟨⟨_, _, rfl⟩, by decide⟩

/-- The longest ROM that fits and the shortest that does not. -/
theorem witness_ResetInstallsEveryResetValue : (List.replicate 3584 0#8).length ≤ 3584 ∧
    3584 < (List.replicate 3585 0#8).length := by
  rw [List.length_replicate, List.length_replicate]; decide

theorem witness_RunControlFollowsTheTable : State.reset.rom = some [] ∧ powered.rom = none ∧
    State.reset.fault = none ∧ State.reset.run = .running ∧
    (∃ s : State, s.fault = none ∧ s.run = .paused) ∧ powered.run ≠ .running ∧ powered.run ≠ .paused ∧
    (List.replicate 3584 0#8).length ≤ 3584 :=
  ⟨by decide, by decide, by decide, by decide, ⟨{ State.reset with run := .paused }, by decide⟩, by decide, by decide,
    List.length_replicate.le⟩

theorem witness_PausedMachineRunsNoCycle : (∃ s : State, s.run = .paused) ∧ State.reset.run = .running ∧
    State.reset.fault = none := ⟨⟨{ State.reset with run := .paused }, rfl⟩, by decide, by decide⟩

theorem witness_NothingButResetBeforeTheFirstReset : PowerOn powered := ⟨rfl, rfl, rfl⟩

theorem witness_DisassemblyListsEveryWord : 2 * 0 + 1 < [0x60#8, 0x12#8].length ∧
    2 * 1 + 1 < [0x60#8, 0x12#8, 0x30#8, 0x12#8, 0x00#8].length := by decide

end Sys2Proof.Tests
end

/-! PROOFS. The invariant of the machine (spec/00_scope.md R5; spec/60_exceptions.md R184, R185;
spec/70_reset_and_hazards.md R201): what an instruction can do to `PC`, the stack and memory is said once
(`exec_controlEffect`); from it a `STEP` keeps the invariant, and so does every other operation of the boundary. -/

namespace Sys2Proof.Machine

/-! ### What an instruction can do to the program counter, the stack and memory -/

/-- The ways an instruction moves `PC` and changes the stack and memory (R101); a raised fault is of the first. -/
inductive ControlEffect (s t : State) : Prop where
  /-- `hold`, `next` or `skip`, or a raised fault (R63, R171). -/
  | stays (hmem : t.mem = s.mem) (hstack : t.stack = s.stack)
      (hpc : t.pc = s.pc ∨ t.pc = s.pc + 2#16 ∨ t.pc = s.pc + 4#16)
  /-- JP (R103) and JP V0 (R109), whose highest target is 0xFFF + 0xFF. -/
  | jumps (hmem : t.mem = s.mem) (hstack : t.stack = s.stack) (hpc : t.pc.toNat ≤ 0x10FE)
  /-- CALL with a free entry (R104). -/
  | calls (k : Fin 16) (nnn : Addr) (hmem : t.mem = s.mem) (hstack : t.stack = s.stack.set k.val (s.pc + 2#16))
      (hpc : t.pc = addrOperand nnn)
  /-- RET with an occupied entry (R102). -/
  | returns (k : Fin 16) (hmem : t.mem = s.mem) (hstack : t.stack = s.stack) (hpc : t.pc = s.stack[k.val])
  /-- LD B (R143) and LD [I] (R144) with the whole range in bounds (R55). -/
  | stores (bs : List Byte) (hin : s.i.toNat + bs.length ≤ 4096)
      (hmem : t.mem = Memory.writeBytes s.params.font s.mem s.i.toNat bs) (hstack : t.stack = s.stack)
      (hpc : t.pc = s.pc + 2#16)

namespace ControlEffect

variable {s t : State}

theorem raise (s : State) (c : Fault) : ControlEffect s (s.raise c) := .stays rfl rfl (.inl rfl)

/-- `next` after a change of anything but `PC`, the stack and memory (R101). -/
theorem advance (hmem : t.mem = s.mem) (hstack : t.stack = s.stack) (hpc : t.pc = s.pc) : ControlEffect s t.advance :=
  .stays hmem hstack (.inr (.inl (by rw [State.advance_pc, hpc])))

theorem skipIf (s : State) (c : Bool) : ControlEffect s (s.skipIf c) := by
  cases c
  · exact .stays rfl rfl (.inr (.inl rfl))
  · exact .stays rfl rfl (.inr (.inr rfl))

theorem skipOnKey (s : State) (k : Byte) (level : Bool) : ControlEffect s (s.skipOnKey k level) := by
  rcases Nat.lt_or_ge k.toNat 16 with h | h
  · rw [State.skipOnKey_of_lt h]; exact skipIf s _
  · rw [State.skipOnKey_of_ge h]; exact raise s _

theorem call (s : State) (nnn : Addr) : ControlEffect s (s.call (addrOperand nnn)) := by
  rcases Nat.lt_or_ge s.sp.val 16 with h | h
  · rw [State.call_of_lt h]; exact .calls ⟨s.sp.val, h⟩ nnn rfl rfl rfl
  · rw [State.call_of_full (by omega)]; exact raise s _

theorem ret (s : State) : ControlEffect s s.ret := by
  rcases Nat.eq_zero_or_eq_succ_pred s.sp.val with h | h
  · rw [State.ret_of_empty h]; exact raise s _
  · have hk : s.sp.val.pred < 16 := by omega
    rw [State.ret_of_pos _ h hk]; exact .returns ⟨_, hk⟩ rfl rfl rfl

/-- A data access has the effect of its state in range, or raises (R55, R63). -/
theorem withData {n : Nat} (h : (n = 0 ∨ s.i.toNat + n - 1 ≤ 4095) → ControlEffect s t) :
    ControlEffect s (s.withData n t) := by
  rcases s.withData_eq t n with ⟨e, hin⟩ | ⟨e, _⟩ <;> rw [e]
  · exact h hin
  · exact raise s _

/-- A store of the bytes `bs` at `I`, then `next`. -/
theorem withData_storeBytes (s : State) (bs : List Byte) (n : Nat) (hn : bs.length = n + 1) :
    ControlEffect s (s.withData (n + 1) (s.storeBytes s.i.toNat bs).advance) :=
  withData fun hin => .stores bs (by omega) rfl rfl rfl

/-- The flag-writing ALU forms do `next` wherever they are not refused (R133). -/
theorem of_refusingVfDest {x : Reg} {b : Byte} {f : Bool}
    (h : refusingVfDest s x (s.writeFlagged x b f) = .next t) : ControlEffect s t := by
  rcases refusingVfDest_eq s (s.writeFlagged x b f) x with ⟨e, _⟩ | ⟨e, _⟩ <;> rw [e] at h <;> cases h
  exact .advance rfl rfl rfl

end ControlEffect

theorem jumpRelTarget_le (s : State) (nnn : Addr) : (jumpRelTarget s nnn).toNat ≤ 0x10FE := by
  rw [jumpRelTarget_toNat]; omega

/-- Every instruction that answers a next state moves `PC` and changes the stack and memory in one of these ways. -/
theorem exec_controlEffect {i : Instr} {s t : State} (h : exec i s = .next t) : ControlEffect s t := by
  cases i <;> simp only [exec] at h
  case ret => cases h; exact .ret s
  case call nnn => cases h; exact .call s nnn
  case jp nnn => cases h; exact .jumps rfl rfl (by simp; omega)
  case jpV0 nnn => cases h; exact .jumps rfl rfl (jumpRelTarget_le s nnn)
  case seImm | sneImm | seReg | sneReg => cases h; exact .skipIf s _
  case skp | sknp => cases h; exact .skipOnKey s _ _
  case addReg | sub | shr | subn | shl => exact .of_refusingVfDest h
  case ldB x => cases h; exact .withData_storeBytes s _ 2 (bcdDigits_length _)
  case ldMemVx x => cases h; exact .withData_storeBytes s _ x.val (registerList_length s x)
  case drw | ldVxMem => cases h; exact .withData fun _ => .advance rfl rfl rfl
  case ldVxK x =>
    unfold execLdVxK at h
    split at h <;> cases h
    · exact .stays rfl rfl (.inl rfl)
    · exact .stays (by simp) (by simp) (.inr (.inl (by simp)))
  case rnd => cases h; exact .stays rfl rfl (.inr (.inl rfl))
  case cls | ldImm | addImm | ldReg | or | and | xor | ldI | ldVxDt | ldDtVx | ldStVx | addI | ldF =>
    cases h; exact .advance rfl rfl rfl

namespace ControlEffect

variable {s t : State}

theorem memory_wf (h : ControlEffect s t) (hw : Memory.wf s.params.font s.mem = true) :
    Memory.wf s.params.font t.mem = true := by
  cases h with
  | stays hmem | jumps hmem | calls _ _ hmem | returns _ hmem => rw [hmem]; exact hw
  | stores bs hin hmem => rw [hmem]; exact Memory.writeBytes_wf _ bs _ _ hin hw

/-- From a `PC` in fetch range the next one is at most the highest target of a relative jump (R23). -/
theorem pc_le (h : ControlEffect s t) (hp : s.pc.toNat ≤ 4094) (hs : ∀ j : Fin 16, s.stack[j.val].toNat ≤ 4096) :
    t.pc.toNat ≤ 0x10FE := by
  cases h with
  | stays _ _ hpc => rcases hpc with e | e | e <;> rw [e] <;> bv_omega
  | jumps _ _ hpc => exact hpc
  | calls _ nnn _ _ hpc => rw [hpc, addrOperand_toNat]; omega
  | returns k _ _ hpc => rw [hpc]; exact (hs k).trans (by decide)
  | stores _ _ _ _ hpc => rw [hpc]; bv_omega

/-- The one entry ever written is a return address, `PC + 2` (R104). -/
theorem stack_le (h : ControlEffect s t) (hp : s.pc.toNat ≤ 4094) (hs : ∀ j : Fin 16, s.stack[j.val].toNat ≤ 4096)
    (j : Fin 16) : t.stack[j.val].toNat ≤ 4096 := by
  cases h with
  | stays _ hstack | jumps _ hstack | returns _ _ hstack | stores _ _ _ hstack => simpa only [hstack] using hs j
  | calls k _ _ hstack =>
    simp only [hstack, Vector.getElem_set]
    split
    · bv_omega
    · exact hs j

end ControlEffect

/-! ### `Live`: what each change of the engine state keeps -/

section
variable {s t : State}

/-- A state that agrees with a live one on what `Live` speaks of, but may have the redraw flag cleared, is live. -/
theorem Live.of_frame (h : Live s) (hparams : t.params = s.params) (hmem : t.mem = s.mem) (hpc : t.pc = s.pc)
    (hstack : t.stack = s.stack) (hfault : t.fault = s.fault) (hredraw : t.redraw = s.redraw ∨ t.redraw = false) :
    Live t where
  memory := by rw [hparams, hmem]; exact h.memory
  pcBound := hpc ▸ h.pcBound
  stackBound j := by simpa only [hstack] using h.stackBound j
  faultPc r hr := by rw [hpc]; exact h.faultPc r (hfault ▸ hr)
  faultRedraw hf := hredraw.elim (fun e => e.trans (h.faultRedraw (hfault ▸ hf))) id

theorem Live.clearRedraw (h : Live s) : Live s.clearRedraw := h.of_frame rfl rfl rfl rfl rfl (.inr rfl)

/-- A fault raised with the redraw flag cleared leaves a live state (R171). -/
theorem Live.raise (h : Live s) (hredraw : s.redraw = false) (c : Fault) : Live (s.raise c) where
  memory := h.memory
  pcBound := h.pcBound
  stackBound := h.stackBound
  faultPc r hr := by cases hr; rfl
  faultRedraw _ := hredraw

/-- An instruction run from a live state as a `STEP` runs it (R100) leaves a live state. -/
theorem exec_keeps_live {i : Instr} (h : Live s) (hfault : s.fault = none) (hredraw : s.redraw = false)
    (hpc : s.pc.toNat ≤ 4094) (he : exec i s = .next t) : Live t := by
  have heff := exec_controlEffect he
  obtain ⟨-, -, -, hparams, -⟩ := exec_boundary he
  rcases exec_fault he hfault with hnone | ⟨c, rfl⟩
  · exact
      { memory := by rw [hparams]; exact heff.memory_wf h.memory
        pcBound := heff.pc_le hpc h.stackBound
        stackBound := heff.stack_le hpc h.stackBound
        faultPc := by simp [hnone]
        faultRedraw := by simp [hnone] }
  · exact h.raise hredraw c

/-- `RESET` with a ROM that fits leaves a live state, whatever was before (R200). -/
theorem State.afterReset_live (s : State) {rom : List Byte} (h : rom.length ≤ 3584) : Live (s.afterReset rom) where
  memory := Memory.cells_wf _ rom 512 (by omega)
  pcBound := by simp [State.afterReset]
  stackBound j := by simp [State.afterReset]
  faultPc r hr := by cases hr
  faultRedraw hf := by cases hf

/-! ### `Inv`: what each operation keeps -/

theorem PowerOn.inv (h : PowerOn s) : Inv s := by
  obtain ⟨hready, hrun, hrom⟩ := h
  exact { live := by simp [hready], started := by simp [hrun], romFits := by simp [hrom] }

/-- A change that keeps a live state live, `ready` and the remembered ROM as they are, and does not leave `Initial`. -/
theorem Inv.of_live (h : Inv s) (hlive : Live s → Live t) (hready : t.ready = s.ready) (hrom : t.rom = s.rom)
    (hrun : t.run ≠ .initial → s.run ≠ .initial) : Inv t where
  live hr := hlive (h.live (hready ▸ hr))
  started hn := hready.trans (h.started (hrun hn))
  romFits r hr := h.romFits r (hrom ▸ hr)

/-- Run control outside `Initial` keeps the invariant (R180). -/
theorem Inv.setRun (h : Inv s) (hrun : s.run ≠ .initial) (run : RunState) : Inv { s with run := run } :=
  h.of_live (fun hl => hl.of_frame rfl rfl rfl rfl rfl (.inl rfl)) rfl rfl fun _ => hrun

/-- A `STEP` keeps the invariant. -/
theorem step_keeps_inv (h : Inv s) (hs : step s = .next t) : Inv t := by
  obtain ⟨hready, ⟨-, rfl⟩ | ⟨-, c, rfl⟩ | ⟨hfault, hpc, i, -, he⟩⟩ := step_cases hs
  · exact h
  · exact h.of_live (fun hl => hl.clearRedraw.raise rfl c) rfl rfl id
  · obtain ⟨hrun, hrom, hready', -, -⟩ := exec_boundary he
    exact h.of_live (fun hl => exec_keeps_live hl.clearRedraw hfault rfl hpc he) hready' hrom (hrun ▸ id)

/-- `RESET` with a ROM that fits establishes the invariant's engine part from any state (R200). -/
theorem Inv.afterReset (h : Inv s) {rom : List Byte} (hrom : rom.length ≤ 3584) : Inv (s.afterReset rom) where
  live _ := s.afterReset_live hrom
  started _ := rfl
  romFits := h.romFits

/-- The state that `START` of a ROM that fits leaves (R180); it needs nothing of the state before. -/
theorem State.started_inv (s : State) {rom : List Byte} (hrom : rom.length ≤ 3584) :
    Inv { s.afterReset rom with rom := some rom, run := .running } where
  live _ := (s.afterReset_live hrom).of_frame rfl rfl rfl rfl rfl (.inl rfl)
  started _ := rfl
  romFits r hr := by cases hr; exact hrom

end

/-! ### The gates of the boundary, read backwards -/

/-- An operation that is answered while it may be suspended is answered by its own rule (R180). -/
theorem State.of_unlessPaused {s : State} {k : OpResult} {r : State × List Output} (h : s.unlessPaused k = .next r) :
    k = .next r := by
  by_cases hp : s.run = .paused
  · rw [State.unlessPaused_of_paused hp] at h; cases h
  · rwa [State.unlessPaused_of_ne hp] at h

/-- An operation behind the precondition of R185 that is answered has done nothing, under a latched fault (R171), or
what its own rule says. -/
theorem State.whenLive_cases {s : State} {k : OpResult} {r : State × List Output} (h : s.whenLive k = .next r) :
    s.ready = true ∧ ((s.fault ≠ none ∧ r = (s, [])) ∨ (s.fault = none ∧ k = .next r)) := by
  cases hr : s.ready with
  | false => rw [State.whenLive_of_unready hr] at h; cases h
  | true =>
    by_cases hf : s.fault = none
    · rw [State.whenLive_of_live hr hf] at h; exact ⟨rfl, .inr ⟨hf, h⟩⟩
    · rw [State.whenLive_of_faulted hr hf] at h; cases h; exact ⟨rfl, .inl ⟨hf, rfl⟩⟩

theorem romFits_iff (rom : List Byte) : romFits rom = true ↔ rom.length ≤ 3584 := decide_eq_true_iff

/-! ### Every operation keeps the invariant -/

section
variable {s t : State} {out : List Output}

theorem opStep_keeps_inv (h : Inv s) (ho : opStep s = .next (t, out)) : Inv t := by
  unfold opStep at ho
  split at ho <;> cases ho
  next hs => exact step_keeps_inv h hs

theorem opTick_keeps_inv (h : Inv s) (ho : opTick s = .next (t, out)) : Inv t := by
  obtain ⟨-, ⟨-, e⟩ | ⟨-, e⟩⟩ := State.whenLive_cases ho <;> cases e
  · exact h
  · exact h.of_live (fun hl => hl.of_frame rfl rfl rfl rfl rfl (.inl rfl)) rfl rfl id

theorem opSetKey_keeps_inv (h : Inv s) {index : Nat} {pressed : Bool} (ho : opSetKey index pressed s = .next (t, out)) :
    Inv t := by
  unfold opSetKey at ho
  split at ho
  · cases ho
  split at ho
  · obtain ⟨-, ⟨-, e⟩ | ⟨-, e⟩⟩ := State.whenLive_cases ho <;> cases e
    · exact h
    · exact h.of_live (fun hl => hl.of_frame rfl rfl rfl rfl rfl (.inl rfl)) rfl rfl id
  · cases ho

theorem opSample_keeps_inv (h : Inv s) (ho : opSample s = .next (t, out)) : Inv t := by
  obtain ⟨-, ⟨-, e⟩ | ⟨-, e⟩⟩ := State.whenLive_cases ho
  · cases e; exact h
  · split at e <;> cases e
    · exact h.of_live Live.clearRedraw rfl rfl id
    · exact h

theorem opReset_keeps_inv (h : Inv s) {rom : List Byte} (ho : opReset rom s = .next (t, out)) : Inv t := by
  unfold opReset at ho
  split at ho <;> cases ho
  next hfits => exact h.afterReset ((romFits_iff rom).1 hfits)

/-- `START` establishes the invariant from any state (R180). -/
theorem opStart_inv {rom : List Byte} (ho : opStart rom s = .next (t, out)) : Inv t := by
  unfold opStart at ho
  split at ho <;> cases ho
  next hfits => exact s.started_inv ((romFits_iff rom).1 hfits)

theorem opRestart_inv (ho : opRestart s = .next (t, out)) : Inv t := by
  unfold opRestart at ho
  split at ho
  · exact opStart_inv ho
  · cases ho

theorem opPause_keeps_inv (h : Inv s) (ho : opPause s = .next (t, out)) : Inv t := by
  unfold opPause at ho
  split at ho <;> cases ho
  next hc => exact h.setRun (by simp [hc.1]) _
  · exact h

theorem opResume_keeps_inv (h : Inv s) (ho : opResume s = .next (t, out)) : Inv t := by
  unfold opResume at ho
  split at ho <;> cases ho
  next hc => exact h.setRun (by simp [hc.1]) _
  · exact h

/-- Every operation of R184 keeps the invariant. -/
theorem perform_keeps_inv (h : Inv s) {o : Op} (ho : perform o s = .next (t, out)) : Inv t := by
  cases o with
  | reset rom => exact opReset_keeps_inv h ho
  | step => exact opStep_keeps_inv h (State.of_unlessPaused ho)
  | tick => exact opTick_keeps_inv h (State.of_unlessPaused ho)
  | setKey index pressed => exact opSetKey_keeps_inv h ho
  | sample => exact opSample_keeps_inv h (State.of_unlessPaused ho)
  | start rom => exact opStart_inv ho
  | restart => exact opRestart_inv ho
  | pause => exact opPause_keeps_inv h ho
  | resume => exact opResume_keeps_inv h ho

/-- Every state reached from power-on meets the invariant. -/
theorem Reachable.inv (h : Reachable s) : Inv s := by
  induction h with
  | powerOn s hp => exact hp.inv
  | perform s t o out _ ho ih => exact perform_keeps_inv ih ho

end

/-- Settles O15: power-on meets the invariant, each of the nine operations keeps it, and so, by induction on how a
state is reached, does every reachable state. -/
theorem everyOperationKeepsTheInvariant : Obligations.EveryOperationKeepsTheInvariant :=
  ⟨fun _ h => h.inv, fun _ _ _ _ h ho => perform_keeps_inv h ho, fun _ h => h.inv⟩

end Sys2Proof.Machine

/-! PROOFS. What one instruction changes and what it reads (spec/10_state.md R21, R24, R29, R30, R37). The pieces of state
an instruction may write are said once (`exec_writes`), and so is what it does not read (`exec_overwrite`); the
statements of the state family follow from these two. -/

namespace Sys2Proof.Machine

open Sys2Proof.Claims

/-- Settles O13: the invariant's step lemma. -/
theorem stepKeepsTheInvariant : Obligations.StepKeepsTheInvariant :=
  fun _ _ h hs => step_keeps_inv h hs

/-! ### The shared operations, as rules about a state that is answered -/

/-- A flag-writing ALU form that is answered is not refused (R133). -/
theorem of_refusingVfDest {s t u : State} {x : Reg} (h : refusingVfDest s x u = .next t) : t = u := by
  rcases refusingVfDest_eq s u x with ⟨e, -⟩ | ⟨e, -⟩ <;> rw [e] at h <;> cases h
  rfl

/-- Wait-for-key answers the state it met, or the one with the reported key written (R162). -/
theorem of_execLdVxK {s t : State} {x : Reg} (h : execLdVxK x s = .next t) :
    (s.pressedKeys = [] ∧ t = s) ∨
      ∃ k ks, s.pressedKeys = k :: ks ∧
        t = (s.setReg x (BitVec.ofNat 8 (selectedKey s k ks).val)).advance.countKeyDraw := by
  unfold execLdVxK at h
  split at h <;> cases h
  next hkeys => exact .inl ⟨hkeys, rfl⟩
  next k ks hkeys => exact .inr ⟨k, ks, hkeys, rfl⟩

@[simp] theorem State.countKeyDraw_reg (s : State) (r : Reg) : s.countKeyDraw.reg r = s.reg r := by
  simp [State.reg]

/-! ### What an instruction may write (R37) -/

/-- `s` with the pieces of state that `i` may write taken from `t` (R37): `PC`, the latch where `i` can fault, and what
the table names; an instruction that no line names writes general registers, and RND and LD Vx, K use up draws. -/
def written (i : Instr) (s t : State) : State :=
  match i with
  | .jp _ | .jpV0 _ | .seImm _ _ | .sneImm _ _ | .seReg _ _ | .sneReg _ _ | .skp _ | .sknp _ =>
    { s with pc := t.pc, fault := t.fault }
  | .ldI _ | .addI _ | .ldF _ => { s with i := t.i, pc := t.pc }
  | .call _ => { s with stack := t.stack, sp := t.sp, pc := t.pc, fault := t.fault }
  | .ret => { s with sp := t.sp, pc := t.pc, fault := t.fault }
  | .ldB _ | .ldMemVx _ => { s with mem := t.mem, pc := t.pc, fault := t.fault }
  | .cls => { s with fb := t.fb, redraw := t.redraw, pc := t.pc }
  | .drw _ _ _ => { s with fb := t.fb, redraw := t.redraw, v := t.v, pc := t.pc, fault := t.fault }
  | .ldDtVx _ => { s with dt := t.dt, pc := t.pc }
  | .ldStVx _ => { s with st := t.st, pc := t.pc }
  | _ => { s with v := t.v, pc := t.pc, fault := t.fault, draws := t.draws }

/-- An instruction that answers a next state wrote nothing but what it may write. -/
theorem exec_writes {i : Instr} {s t : State} (h : exec i s = .next t) : t = written i s t := by
  cases i <;> simp only [exec] at h
  case seImm | sneImm | seReg | sneReg => cases h; rw [State.skipIf_eq]; rfl
  case addReg | sub | shr | subn | shl => rw [of_refusingVfDest h]; rfl
  case drw | ldB | ldMemVx | ldVxMem =>
    cases h
    rcases State.withData_eq .. with ⟨e, -⟩ | ⟨e, -⟩ <;> rw [e] <;> rfl
  case skp | sknp =>
    cases h
    unfold State.skipOnKey
    split
    · rw [State.skipIf_eq]; rfl
    · rfl
  case ret => cases h; unfold State.ret; split <;> rfl
  case call => cases h; unfold State.call; split <;> rfl
  case ldVxK =>
    rcases of_execLdVxK h with ⟨-, rfl⟩ | ⟨k, ks, -, rfl⟩
    · rfl
    · unfold State.countKeyDraw; split <;> rfl
  case cls | jp | jpV0 | ldImm | addImm | ldReg | or | and | xor | rnd | ldI | addI | ldF | ldVxDt | ldDtVx | ldStVx =>
    cases h; rfl

section
variable {i : Instr} {s t : State}

theorem written_i (hld : ∀ a, i ≠ .ldI a) (hadd : ∀ x, i ≠ .addI x) (hldF : ∀ x, i ≠ .ldF x) :
    (written i s t).i = s.i := by
  cases i with
  | ldI a => exact absurd rfl (hld a)
  | addI x => exact absurd rfl (hadd x)
  | ldF x => exact absurd rfl (hldF x)
  | _ => rfl

theorem written_stack (hcall : ∀ a, i ≠ .call a) : (written i s t).stack = s.stack := by
  cases i with
  | call a => exact absurd rfl (hcall a)
  | _ => rfl

theorem written_sp (hcall : ∀ a, i ≠ .call a) (hret : i ≠ .ret) : (written i s t).sp = s.sp := by
  cases i with
  | call a => exact absurd rfl (hcall a)
  | ret => exact absurd rfl hret
  | _ => rfl

theorem written_readByte (hldB : ∀ x, i ≠ .ldB x) (hldMem : ∀ x, i ≠ .ldMemVx x) (a : Nat) :
    (written i s t).readByte a = s.readByte a := by
  cases i with
  | ldB x => exact absurd rfl (hldB x)
  | ldMemVx x => exact absurd rfl (hldMem x)
  | _ => rfl

theorem written_display (hcls : i ≠ .cls) (hdrw : ∀ x y n, i ≠ .drw x y n) :
    (written i s t).fb = s.fb ∧ (written i s t).redraw = s.redraw := by
  cases i with
  | cls => exact absurd rfl hcls
  | drw x y n => exact absurd rfl (hdrw x y n)
  | _ => exact ⟨rfl, rfl⟩

theorem written_dt (hdt : ∀ x, i ≠ .ldDtVx x) : (written i s t).dt = s.dt := by
  cases i with
  | ldDtVx x => exact absurd rfl (hdt x)
  | _ => rfl

theorem written_st (hst : ∀ x, i ≠ .ldStVx x) : (written i s t).st = s.st := by
  cases i with
  | ldStVx x => exact absurd rfl (hst x)
  | _ => rfl

end

/-- Settles O46: what an instruction may write (`exec_writes`) spares each piece of state the statement names; no
instruction touches the boundary's own state (`exec_boundary`). -/
theorem eachInstructionLeavesTheRestAlone : Obligations.EachInstructionLeavesTheRestAlone := by
  intro i s t h
  obtain ⟨hrun, hrom, hready, hparams, hkey⟩ := exec_boundary h
  refine ⟨?_, ?_, ?_, ?_, ?_, ?_, ?_, hkey, hrun, hrom, hready, hparams⟩ <;> rw [exec_writes h]
  · exact written_i
  · exact written_stack
  · exact written_sp
  · exact written_readByte
  · exact written_display
  · exact written_dt
  · exact written_st

/-! ### The general registers (R21, R37) -/

/-- The registers after a data access, read at `r`: as before, if the access's own state leaves `r` alone. -/
theorem State.withData_reg {s t : State} {r : Reg} (n : Nat) (ht : t.reg r = s.reg r) :
    (s.withData n t).reg r = s.reg r := by
  rcases s.withData_eq t n with ⟨e, -⟩ | ⟨e, -⟩ <;> rw [e]
  · exact ht
  · rfl

/-- Settles O45: a written register is a destination, case by case; an instruction with no destination has no register
among what it may write (`exec_writes`). -/
theorem onlyDestinationsChange : Obligations.OnlyDestinationsChange := by
  intro i s t r h hr
  cases i with
  | ldImm | addImm | ldReg | or | and | xor | rnd | ldVxDt =>
    cases h; exact s.setReg_reg_of_ne (List.ne_of_not_mem_cons hr) _
  | addReg | sub | shr | subn | shl =>
    rw [of_refusingVfDest h, State.writeFlagged_reg, if_neg, if_neg]
    · exact List.ne_of_not_mem_cons hr
    · exact List.ne_of_not_mem_cons (List.not_mem_of_not_mem_cons hr)
  | drw x y n =>
    cases h
    exact State.withData_reg _ (State.setReg_reg_of_ne _ (List.ne_of_not_mem_cons hr) _)
  | ldVxMem x =>
    cases h
    refine State.withData_reg _ ((loadedRegisters_getElem s x r).trans (if_neg ?_))
    simpa [destinations] using hr
  | ldVxK x =>
    rcases of_execLdVxK h with ⟨-, rfl⟩ | ⟨k, ks, -, rfl⟩
    · rfl
    · rw [State.countKeyDraw_reg, State.advance_reg, State.setReg_reg_of_ne _ (List.ne_of_not_mem_cons hr)]
  | _ => rw [exec_writes h]; rfl

/-! ### The draw and the redraw flag (R30, R151) -/

/-- A draw in range writes the framebuffer and VF, and sets the redraw flag (R151). -/
theorem exec_drw_of_inRange {s : State} {x y : Reg} {n : Fin 16} (h : InRange s n.val) :
    exec (.drw x y n) s = .next ({ s with fb := (drawnSprite x y n.val s).fb, redraw := true }.setVf
      (drawnSprite x y n.val s).hit).advance :=
  congrArg _ (State.withData_of_inRange h _)

/-- A draw out of range raises and does nothing else (R55, R151). -/
theorem exec_drw_of_not_inRange {s : State} {x y : Reg} {n : Fin 16} (h : ¬InRange s n.val) :
    exec (.drw x y n) s = .next (s.raise (.memOutOfRange (s.i.toNat + n.val - 1))) := by
  unfold InRange at h
  exact congrArg _ (State.withData_of_outOfRange (by omega) (by omega) _)

/-- The redraw flag after an instruction that began with the flag cleared and no fault latched (R30). -/
theorem exec_redraw_iff {i : Instr} {s t : State} (hfault : s.fault = none) (hredraw : s.redraw = false)
    (h : exec i s = .next t) :
    t.redraw = true ↔ (i = .cls ∨ ∃ x y n, i = .drw x y n) ∧ t.fault = none := by
  by_cases hcls : i = .cls
  · subst hcls
    cases h
    simpa using hfault
  by_cases hdrw : ∃ x y n, i = .drw x y n
  · obtain ⟨x, y, n, rfl⟩ := hdrw
    by_cases hin : InRange s n.val
    · cases (exec_drw_of_inRange hin).symm.trans h
      simpa using hfault
    · cases (exec_drw_of_not_inRange hin).symm.trans h
      simpa using hredraw
  · have hkept : t.redraw = s.redraw := by
      rw [exec_writes h]
      exact (written_display hcls fun x y n e => hdrw ⟨x, y, n, e⟩).2
    simp [hkept, hredraw, hcls, hdrw]

/-- A `STEP` from a live state whose fetch is in range and decodes runs the instruction (R100). -/
theorem step_of_decode {s : State} {i : Instr} (hready : s.ready = true) (hfault : s.fault = none)
    (hpc : s.pc.toNat ≤ 4094) (hi : decodeWith s.params.strict59 s.fetchedWord = .instr i) :
    step s = exec i s.clearRedraw := by
  have hfetch : outOfRange s.pc.toNat 2 = false := (outOfRange_eq_false ..).2 (.inr (by omega))
  simp [step, nextAction, hready, hfault, hfetch, hi, decodedAction]

/-- Settles O12: the `STEP` runs the instruction with the flag cleared (`step_of_decode`), and the instruction sets it
only as a clear-screen or a draw in range (`exec_redraw_iff`). -/
theorem stepSetsRedrawOnlyForDrawAndClear : Obligations.StepSetsRedrawOnlyForDrawAndClear := by
  intro s t i hready hfault hpc hi h
  rw [step_of_decode hready hfault hpc hi] at h
  exact exec_redraw_iff (s := s.clearRedraw) hfault rfl h

/-! ### What an instruction does not read (R24, R29, R30) -/

/-- New values for pieces of state that no instruction brings into the program's data; `none` keeps the old one. -/
structure Overwrite where
  stack : Option (Vector Word 16) := none
  sp : Option (Fin 17) := none
  st : Option SoundTimer := none
  redraw : Option Bool := none

/-- `s` with these pieces overwritten, everything else as it was. -/
def State.overwrite (w : Overwrite) (s : State) : State :=
  { s with stack := w.stack.getD s.stack, sp := w.sp.getD s.sp, st := w.st.getD s.st, redraw := w.redraw.getD s.redraw }

/-- What `i` writes of these pieces, or sets `PC` by, is not overwritten. -/
def Overwrite.Spares (w : Overwrite) : Instr → Prop
  | .call _ | .ret => w.stack = none ∧ w.sp = none
  | .cls | .drw _ _ _ => w.redraw = none
  | .ldStVx _ => w.st = none
  | _ => True

namespace Overwrite

/-- Only CALL and RET write the stack or set `PC` by it (R102, R104). -/
theorem spares_of_stack {i : Instr} (hcall : ∀ a, i ≠ .call a) (hret : i ≠ .ret)
    (stack : Vector Word 16) (sp : Fin 17) : Spares { stack := some stack, sp := some sp } i := by
  cases i with
  | call a => exact absurd rfl (hcall a)
  | ret => exact absurd rfl hret
  | cls | drw | ldStVx => exact rfl
  | _ => trivial

/-- Only LD ST, CLS and DRW write the sound timer or the redraw flag (R150, R151, R165). -/
theorem spares_of_sound_redraw {i : Instr} (hst : ∀ x, i ≠ .ldStVx x) (hcls : i ≠ .cls)
    (hdrw : ∀ x y n, i ≠ .drw x y n) (st : SoundTimer) (redraw : Bool) :
    Spares { st := some st, redraw := some redraw } i := by
  cases i with
  | ldStVx x => exact absurd rfl (hst x)
  | cls => exact absurd rfl hcls
  | drw x y n => exact absurd rfl (hdrw x y n)
  | call | ret => exact ⟨rfl, rfl⟩
  | _ => trivial

end Overwrite

section
variable {w : Overwrite} {s t : State}

theorem State.skipIf_overwrite (c : Bool) : (s.overwrite w).skipIf c = (s.skipIf c).overwrite w := by
  cases c <;> rfl

theorem State.skipOnKey_overwrite (k : Byte) (level : Bool) :
    (s.overwrite w).skipOnKey k level = (s.skipOnKey k level).overwrite w := by
  rcases Nat.lt_or_ge k.toNat 16 with h | h
  · rw [State.skipOnKey_of_lt h, State.skipOnKey_of_lt h]; exact State.skipIf_overwrite _
  · rw [State.skipOnKey_of_ge h, State.skipOnKey_of_ge h]; rfl

theorem State.withData_overwrite {u : State} (hu : u = t.overwrite w) (n : Nat) :
    (s.overwrite w).withData n u = (s.withData n t).overwrite w := by
  subst hu
  unfold State.withData
  rw [apply_ite (State.overwrite w)]
  rfl

theorem State.countKeyDraw_overwrite : (s.overwrite w).countKeyDraw = s.countKeyDraw.overwrite w := by
  have hparams : (s.overwrite w).params = s.params := rfl
  cases h : s.params.keySelect with
  | lowest => simp only [State.countKeyDraw, hparams, h]
  | any => simp only [State.countKeyDraw, hparams, h]; rfl

theorem State.call_overwrite (hstack : w.stack = none) (hsp : w.sp = none) (a : Word) :
    (s.overwrite w).call a = (s.call a).overwrite w := by
  cases w; cases hstack; cases hsp
  unfold State.call
  rw [apply_dite (State.overwrite _)]
  rfl

theorem State.ret_overwrite (hstack : w.stack = none) (hsp : w.sp = none) : (s.overwrite w).ret = s.ret.overwrite w := by
  cases w; cases hstack; cases hsp
  unfold State.ret
  rw [apply_dite (State.overwrite _)]
  rfl

theorem refusingVfDest_overwrite {x : Reg} {u : State} (h : refusingVfDest s x u = .next t) :
    refusingVfDest (s.overwrite w) x (u.overwrite w) = .next (t.overwrite w) := by
  rcases refusingVfDest_eq s u x with ⟨e, hallowed⟩ | ⟨e, -⟩ <;> rw [e] at h <;> cases h
  rcases refusingVfDest_eq (s.overwrite w) (t.overwrite w) x with ⟨e', -⟩ | ⟨-, hrefused⟩
  · exact e'
  · exact absurd hrefused hallowed

theorem execLdVxK_overwrite {x : Reg} (h : execLdVxK x s = .next t) :
    execLdVxK x (s.overwrite w) = .next (t.overwrite w) := by
  have hpressed : (s.overwrite w).pressedKeys = s.pressedKeys := rfl
  rcases of_execLdVxK h with ⟨hkeys, rfl⟩ | ⟨k, ks, hkeys, rfl⟩ <;> simp only [execLdVxK, hpressed, hkeys]
  exact congrArg _ (State.countKeyDraw_overwrite (s := (s.setReg x _).advance))

/-- An instruction runs alike whatever the pieces of state are that it neither writes nor follows: the next state is the
same, with these overwritten. -/
theorem exec_overwrite {i : Instr} (hw : w.Spares i) (h : exec i s = .next t) :
    exec i (s.overwrite w) = .next (t.overwrite w) := by
  cases i <;> simp only [exec] at h ⊢
  case seImm | sneImm | seReg | sneReg => cases h; exact congrArg _ (State.skipIf_overwrite _)
  case skp | sknp => cases h; exact congrArg _ (State.skipOnKey_overwrite _ _)
  case call => cases h; exact congrArg _ (State.call_overwrite hw.1 hw.2 _)
  case ret => cases h; exact congrArg _ (State.ret_overwrite hw.1 hw.2)
  case addReg | sub | shr | subn | shl => exact refusingVfDest_overwrite h
  case ldB | ldMemVx | ldVxMem => cases h; exact congrArg _ (State.withData_overwrite (by rfl) _)
  case ldVxK => exact execLdVxK_overwrite h
  case cls | ldStVx => cases w; cases hw; cases h; rfl
  case drw => cases w; cases hw; cases h; exact congrArg _ (State.withData_overwrite (by rfl) _)
  case jp | jpV0 | ldImm | addImm | ldReg | or | and | xor | rnd | ldI | addI | ldF | ldVxDt | ldDtVx =>
    cases h; rfl
end

/-- Settles O49: CALL and RET leave the program's data as it was; every other instruction runs alike under another stack
(`exec_overwrite`). -/
theorem stackIsNotReadable : Obligations.StackIsNotReadable := by
  intro i s t t' stack sp h h'
  by_cases hcall : ∃ a, i = .call a
  · obtain ⟨a, rfl⟩ := hcall
    cases h; cases h'; simp
  by_cases hret : i = .ret
  · subst hret
    cases h; cases h'; simp
  have hw := Overwrite.spares_of_stack (not_exists.1 hcall) hret stack sp
  cases (exec_overwrite hw h).symm.trans h'
  exact ⟨rfl, rfl, rfl, rfl, rfl, rfl⟩

/-- Settles O48: LD ST, CLS and DRW write the sound timer or the redraw flag without reading them; every other
instruction runs alike under other values (`exec_overwrite`). -/
theorem noInstructionReadsSoundTimerOrRedraw : Obligations.NoInstructionReadsSoundTimerOrRedraw := by
  intro i s t st redraw h
  by_cases hst : ∃ x, i = .ldStVx x
  · obtain ⟨x, rfl⟩ := hst
    cases h
    exact ⟨_, rfl, rfl, fun hne => absurd rfl (hne x), fun _ _ => rfl, fun _ _ => rfl, nofun, nofun⟩
  by_cases hcls : i = .cls
  · subst hcls
    cases h
    exact ⟨_, rfl, rfl, fun _ => rfl, nofun, fun hne => absurd rfl hne, fun _ => rfl, nofun⟩
  by_cases hdrw : ∃ x y n, i = .drw x y n
  · obtain ⟨x, y, n, rfl⟩ := hdrw
    by_cases hin : InRange s n.val
    · cases (exec_drw_of_inRange hin).symm.trans h
      refine ⟨_, exec_drw_of_inRange hin, rfl, fun _ => rfl, nofun, fun _ hne => absurd rfl (hne x y n), nofun, ?_⟩
      intro _ _ _ e
      cases e
      exact ⟨fun _ => rfl, fun hout => absurd hin hout⟩
    · cases (exec_drw_of_not_inRange hin).symm.trans h
      refine ⟨_, exec_drw_of_not_inRange hin, rfl, fun _ => rfl, nofun, fun _ _ => rfl, nofun, ?_⟩
      intro _ _ _ e
      cases e
      exact ⟨fun hin' => absurd hin' hin, fun _ => rfl⟩
  have hw := Overwrite.spares_of_sound_redraw (not_exists.1 hst) hcls (fun x y n e => hdrw ⟨x, y, n, e⟩) st redraw
  exact ⟨_, exec_overwrite hw h, rfl, fun _ => rfl, fun x e => absurd ⟨x, e⟩ hst, fun _ _ => rfl,
    fun e => absurd e hcls, fun x y n e => absurd ⟨x, y, n, e⟩ hdrw⟩

end Sys2Proof.Machine

/-! PROOFS. The memory family (spec/20_memory.md R52, R60): what a store leaves to be read, and that the next fetch, when
`I` is the address it reads, finds the first two bytes stored. -/

namespace Sys2Proof.Machine

/-! ### What the storing instructions do in range (R143, R144) -/

theorem exec_ldB_of_inRange {s : State} (x : Reg) (h : s.i.toNat + 2 ≤ 4095) :
    exec (.ldB x) s = .next (s.storeBytes s.i.toNat (bcdDigits (s.reg x))).advance :=
  congrArg _ (State.withData_of_inRange (.inr h) _)

theorem exec_ldMemVx_of_inRange {s : State} (x : Reg) (h : s.i.toNat + x.val ≤ 4095) :
    exec (.ldMemVx x) s = .next (s.storeBytes s.i.toNat (registerList s x)).advance :=
  congrArg _ (State.withData_of_inRange (.inr h) _)

section
variable {s : State} {bs : List Byte}

/-- The byte at offset `j` of the bytes stored at `a` reads back (R57). -/
theorem State.storeBytes_readByte_inside (hw : Memory.wf s.params.font s.mem = true) {a j : Nat} (hj : j < bs.length)
    (hin : a + bs.length ≤ 4096) : (s.storeBytes a bs).readByte (a + j) = bs[j] :=
  Memory.read_writeBytes_inside _ bs a j s.mem hj hin hw

/-- After a store over the bytes that follow the storing instruction, the next fetch is at the first byte stored. -/
theorem State.storeBytes_advance_pc (hi : s.i = s.pc + 2#16) : (s.storeBytes s.i.toNat bs).advance.pc = s.i :=
  hi.symm

/-- The next fetch after such a store finds the first two bytes stored, the first one high (R52, R60). -/
theorem State.storeBytes_advance_fetchedWord (hw : Memory.wf s.params.font s.mem = true) (hi : s.i = s.pc + 2#16)
    (hlen : 2 ≤ bs.length) (hin : s.i.toNat + bs.length ≤ 4096) :
    (s.storeBytes s.i.toNat bs).advance.fetchedWord = wordOfBytes bs[0] bs[1] := by
  have hhigh : (s.storeBytes s.i.toNat bs).readByte s.i.toNat = bs[0] :=
    State.storeBytes_readByte_inside hw (j := 0) _ hin
  have hlow : (s.storeBytes s.i.toNat bs).readByte (s.i.toNat + 1) = bs[1] :=
    State.storeBytes_readByte_inside hw _ hin
  rw [State.fetchedWord, State.storeBytes_advance_pc hi, State.advance_readByte, State.advance_readByte, hhigh, hlow]

end

/-- The word of the hundreds and tens digits of a byte, as a number: neither digit is cut off (R143). -/
theorem wordOfBytes_bcdDigits_toNat (b : Byte) :
    (wordOfBytes (bcdDigits b)[0] (bcdDigits b)[1]).toNat = b.toNat / 100 * 256 + b.toNat / 10 % 10 := by
  have hhundreds : b.toNat / 100 < 256 := by omega
  have htens : b.toNat / 10 % 10 < 256 := by omega
  simp [wordOfBytes_toNat, bcdDigits, Nat.mod_eq_of_lt hhundreds, Nat.mod_eq_of_lt htens]

/-- Settles O35: both instructions store at `I` and move `PC` there, so the next fetch finds the first two bytes stored
(`State.storeBytes_advance_fetchedWord`): V0 and V1, or the hundreds and tens digits. -/
theorem storeIsSeenByTheNextFetch : Obligations.StoreIsSeenByTheNextFetch := by
  refine fun s x hw hi => ⟨fun hx hin => ⟨_, exec_ldMemVx_of_inRange x hin, State.storeBytes_advance_pc hi, ?_⟩,
    fun hin => ⟨_, exec_ldB_of_inRange x hin, State.storeBytes_advance_pc hi, ?_⟩⟩
  · have hlen := registerList_length s x
    rw [State.storeBytes_advance_fetchedWord hw hi (by omega) (by omega), registerList_getElem, registerList_getElem]
    rfl
  · have hlen := bcdDigits_length (s.reg x)
    rw [State.storeBytes_advance_fetchedWord hw hi (by omega) (by omega)]
    exact wordOfBytes_bcdDigits_toNat (s.reg x)

end Sys2Proof.Machine

/-! PROOFS. The encoding family (spec/30_encoding.md R71 to R86). Any word is the encoder's word of its own fields; what
the decoder answers is said once, by category (`decodeWith_cases`), and so is when it answers `Unknown` and which word an
instruction it answers encodes to (`decodeWith_answers`); the statements about words and about the rows of the opcode
map follow from these. -/

namespace Sys2Proof

/-! ### Decoding what was encoded (R71, R72, R75) -/

/-- Settles O1, format by format: the category, selector and operand fields of the encoder's word (`opField_encodeA` and
its kin) take the decoder to the arm that builds the instruction again. -/
theorem decodeOfEncodeIsTheInstruction : Obligations.DecodeOfEncodeIsTheInstruction := by
  intro strict i
  cases i with
  | cls | ret => rfl
  | jp | call | ldI | jpV0 => simp [encode, decodeWith]
  | seImm | sneImm | ldImm | addImm | rnd => simp [encode, decodeWith]
  | seReg | sneReg => simp [encode, decodeWith, decode59]
  | ldReg | or | and | xor | addReg | sub | shr | subn | shl => simp [encode, decodeWith, decode8]
  | drw => simp [encode, decodeWith]
  | skp | sknp => simp [encode, decodeWith, decodeE]
  | ldVxDt | ldVxK | ldDtVx | ldStVx | addI | ldF | ldB | ldMemVx | ldVxMem => simp [encode, decodeWith, decodeF]

/-- Settles O6 by running the decoder on the eleven words. -/
theorem specWordsDecodeToTheirInstructions : Obligations.SpecWordsDecodeToTheirInstructions := by
  unfold Obligations.SpecWordsDecodeToTheirInstructions
  decide

/-! ### A word is put together from its own fields (R71, R72) -/

theorem encodeA_fields (w : Word) : encodeA (opField w) (nnnField w) = w := by
  apply BitVec.eq_of_toNat_eq
  rw [encodeA_toNat, opField_toNat, nnnField_toNat]
  omega

theorem encodeI_fields (w : Word) : encodeI (opField w) (xField w) (nnField w) = w := by
  apply BitVec.eq_of_toNat_eq
  rw [encodeI_toNat, opField_toNat, xField_val, nnField_toNat]
  omega

theorem encodeR_fields (w : Word) : encodeR (opField w) (xField w) (yField w) (nField w) = w := by
  apply BitVec.eq_of_toNat_eq
  rw [encodeR_toNat, opField_toNat, xField_val, yField_val, nField_toNat]
  omega

theorem encodeR_and_FFF0 (op : BitVec 4) (x y : Reg) (n : BitVec 4) :
    encodeR op x y n &&& 0xFFF0#16 = encodeR op x y 0x0#4 := by
  change (op ++ BitVec.ofNat 4 x.val ++ BitVec.ofNat 4 y.val ++ n) &&& (0xFFF#12 ++ 0x0#4) = _
  rw [BitVec.and_append]
  congr 1
  · exact BitVec.and_allOnes
  · exact BitVec.and_zero

theorem opField_and_FFF0 (w : Word) : opField (w &&& 0xFFF0#16) = opField w :=
  BitVec.extractLsb'_and.trans BitVec.and_allOnes

theorem nibble_eq_of_toNat {n : BitVec 4} {k : Nat} (h : n.toNat = k) : n = BitVec.ofNat 4 k := by
  rw [← h, BitVec.ofNat_toNat, BitVec.setWidth_eq]

/-! ### The decoder by category (R73) -/

/-- What the decoder answers for `w`, by the category of `w`. In categories 1 to 4, 6, 7 and A to D every word is an
instruction's; in 5 and 9 it is one but for the low nibble (R80). -/
inductive DecodeCase (strict : Bool) (w : Word) : Decoded → Prop where
  | zero (hop : opField w = 0x0#4) : DecodeCase strict w (decode0 w)
  | total (hop : opField w ∉ [0x0#4, 0x5#4, 0x8#4, 0x9#4, 0xE#4, 0xF#4]) {i : Instr} (hi : encode i = w) :
    DecodeCase strict w (.instr i)
  | compare (hop : opField w ∈ [0x5#4, 0x9#4]) {i : Instr} (hi : encode i = w &&& 0xFFF0#16) :
    DecodeCase strict w (decode59 strict w i)
  | eight (hop : opField w = 0x8#4) : DecodeCase strict w (decode8 w)
  | keys (hop : opField w = 0xE#4) : DecodeCase strict w (decodeE w)
  | misc (hop : opField w = 0xF#4) : DecodeCase strict w (decodeF w)

namespace DecodeCase

variable {strict : Bool} {w : Word} {op : BitVec 4}

theorem formatA (h : opField w = op) (hop : op ∉ [0x0#4, 0x5#4, 0x8#4, 0x9#4, 0xE#4, 0xF#4]) {i : Instr}
    (hi : encode i = encodeA op (nnnField w)) : DecodeCase strict w (.instr i) :=
  .total (h ▸ hop) (by rw [hi, ← h, encodeA_fields])

theorem formatI (h : opField w = op) (hop : op ∉ [0x0#4, 0x5#4, 0x8#4, 0x9#4, 0xE#4, 0xF#4]) {i : Instr}
    (hi : encode i = encodeI op (xField w) (nnField w)) : DecodeCase strict w (.instr i) :=
  .total (h ▸ hop) (by rw [hi, ← h, encodeI_fields])

theorem formatR (h : opField w = op) (hop : op ∈ [0x5#4, 0x9#4]) {i : Instr}
    (hi : encode i = encodeR op (xField w) (yField w) 0x0#4) : DecodeCase strict w (decode59 strict w i) := by
  refine .compare (h ▸ hop) ?_
  rw [hi, ← h, ← encodeR_and_FFF0 _ _ _ (nField w), encodeR_fields]

end DecodeCase

theorem decodeWith_cases (strict : Bool) (w : Word) : DecodeCase strict w (decodeWith strict w) := by
  unfold decodeWith
  split
  case h_1 h => exact .zero (nibble_eq_of_toNat h)
  case h_2 h => exact .formatA (nibble_eq_of_toNat h) (by decide) rfl
  case h_3 h => exact .formatA (nibble_eq_of_toNat h) (by decide) rfl
  case h_4 h => exact .formatI (nibble_eq_of_toNat h) (by decide) rfl
  case h_5 h => exact .formatI (nibble_eq_of_toNat h) (by decide) rfl
  case h_6 h => exact .formatR (nibble_eq_of_toNat h) (by decide) rfl
  case h_7 h => exact .formatI (nibble_eq_of_toNat h) (by decide) rfl
  case h_8 h => exact .formatI (nibble_eq_of_toNat h) (by decide) rfl
  case h_9 h => exact .eight (nibble_eq_of_toNat h)
  case h_10 h => exact .formatR (nibble_eq_of_toNat h) (by decide) rfl
  case h_11 h => exact .formatA (nibble_eq_of_toNat h) (by decide) rfl
  case h_12 h => exact .formatA (nibble_eq_of_toNat h) (by decide) rfl
  case h_13 h => exact .formatI (nibble_eq_of_toNat h) (by decide) rfl
  case h_14 h =>
    have hop := nibble_eq_of_toNat h
    refine .total (hop ▸ by decide) ?_
    have hn : nField w = BitVec.ofNat 4 (nField w).toFin.val := nibble_eq_of_toNat rfl
    rw [encode, ← hop, ← hn, encodeR_fields]
  case h_15 h => exact .keys (nibble_eq_of_toNat h)
  case h_16 =>
    have hlt := (opField w).isLt
    simp only [imp_false] at *
    exact .misc (nibble_eq_of_toNat (k := 15) (by omega))

/-! ### What the decoder answers for a word (R75 to R81) -/

/-- `d` answers for the word `w`: `Unknown` of `w` if `w` is illegal, else an instruction whose canonical word
is `v`. -/
inductive Answers (w v : Word) (illegal : Prop) : Decoded → Prop where
  | unknown (h : illegal) : Answers w v illegal (.unknown w)
  | instr (h : ¬illegal) {i : Instr} (hi : encode i = v) : Answers w v illegal (.instr i)

namespace Answers

variable {w v : Word} {illegal : Prop}

theorem congr {d : Decoded} (h : Answers w v illegal d) {v' : Word} {illegal' : Prop} (hv : v' = v)
    (hp : illegal' ↔ illegal) : Answers w v' illegal' d := by
  rwa [hv, hp]

theorem encode_eq {i : Instr} (h : Answers w v illegal (.instr i)) : encode i = v := by
  cases h with
  | instr _ hi => exact hi

theorem unknown_eq {u : Word} (h : Answers w v illegal (.unknown u)) : u = w := by
  cases h with
  | unknown => rfl

theorem eq_unknown_iff {d : Decoded} (h : Answers w v illegal d) : d = .unknown w ↔ illegal := by
  cases h with
  | unknown h => exact iff_of_true rfl h
  | instr h => exact iff_of_false Decoded.noConfusion h

end Answers

/-- The low nibbles of category 8 that select no instruction (R77). -/
def unusedNibbles : List (BitVec 4) := [0x8#4, 0x9#4, 0xA#4, 0xB#4, 0xC#4, 0xD#4, 0xF#4]

/-- The low bytes of category E that select an instruction (R78). -/
def keyBytes : List Byte := [0x9E#8, 0xA1#8]

/-- The low bytes of category F that select an instruction (R79). -/
def miscBytes : List Byte := [0x07#8, 0x0A#8, 0x15#8, 0x18#8, 0x1E#8, 0x29#8, 0x33#8, 0x55#8, 0x65#8]

theorem decode0_answers (w : Word) : Answers w w (w ≠ 0x00E0#16 ∧ w ≠ 0x00EE#16) (decode0 w) := by
  unfold decode0
  split_ifs with hcls hret
  · exact .instr (fun h => h.1 hcls) hcls.symm
  · exact .instr (fun h => h.2 hret) hret.symm
  · exact .unknown ⟨hcls, hret⟩

theorem decode59_answers (strict : Bool) (w : Word) (i : Instr) :
    Answers w (encode i) (strict = true ∧ nField w ≠ 0#4) (decode59 strict w i) := by
  unfold decode59
  split_ifs with h
  · exact .unknown (by simpa using h)
  · exact .instr (by simpa using h) rfl

theorem decode8_answers {w : Word} (hop : opField w = 0x8#4) :
    Answers w w (nField w ∈ unusedNibbles) (decode8 w) := by
  have selected {i : Instr} {k : Nat} (h : (nField w).toNat = k) (hk : BitVec.ofNat 4 k ∉ unusedNibbles)
      (hi : encode i = encodeR 0x8#4 (xField w) (yField w) (BitVec.ofNat 4 k)) :
      Answers w w (nField w ∈ unusedNibbles) (.instr i) := by
    rw [← nibble_eq_of_toNat h] at hk hi
    exact .instr hk (by rw [hi, ← hop, encodeR_fields])
  unfold decode8
  dsimp only
  split
  case h_10 =>
    have hlt := (nField w).isLt
    simp only [imp_false] at *
    refine .unknown ?_
    simp [unusedNibbles, ← BitVec.toNat_inj]
    omega
  all_goals exact selected ‹_› (by decide) rfl

/-- Categories E and F: the low byte, one of `bytes`, selects; `X` is the operand. -/
theorem Answers.selected {w : Word} {op : BitVec 4} {nn : Byte} {bytes : List Byte} {i : Instr} (hop : opField w = op)
    (hnn : nnField w = nn) (hmem : nn ∈ bytes) (hi : encode i = encodeI op (xField w) nn) :
    Answers w w (nnField w ∉ bytes) (.instr i) :=
  .instr (fun h => h (hnn ▸ hmem)) (by rw [hi, ← hop, ← hnn, encodeI_fields])

theorem decodeE_answers {w : Word} (hop : opField w = 0xE#4) : Answers w w (nnField w ∉ keyBytes) (decodeE w) := by
  unfold decodeE
  dsimp only
  split_ifs with hskp hsknp
  · exact .selected hop hskp (by decide) rfl
  · exact .selected hop hsknp (by decide) rfl
  · exact .unknown (by simp [keyBytes, hskp, hsknp])

theorem decodeF_answers {w : Word} (hop : opField w = 0xF#4) : Answers w w (nnField w ∉ miscBytes) (decodeF w) := by
  unfold decodeF
  dsimp only
  split_ifs
  case neg => exact .unknown (by simp [miscBytes, *])
  all_goals exact .selected hop ‹_› (by decide) rfl

/-- The word that the encoder gives back for `w`: the nibble that categories 5 and 9 ignore is 0 (R80). -/
def canonicalWord (w : Word) : Word := if opField w = 0x5#4 ∨ opField w = 0x9#4 then w &&& 0xFFF0#16 else w

/-- The words with no instruction (R76 to R79, R81). -/
def IllegalWord (w : Word) : Prop :=
  (opField w = 0x0#4 ∧ w ≠ 0x00E0#16 ∧ w ≠ 0x00EE#16) ∨ (opField w = 0x8#4 ∧ nField w ∈ unusedNibbles) ∨
    (opField w = 0xE#4 ∧ nnField w ∉ keyBytes) ∨ (opField w = 0xF#4 ∧ nnField w ∉ miscBytes)

/-- The words with no instruction under the option `STRICT_5_9` = `strict` (R80, R81). -/
def IllegalUnder (strict : Bool) (w : Word) : Prop :=
  IllegalWord w ∨ (opField w ∈ [0x5#4, 0x9#4] ∧ strict = true ∧ nField w ≠ 0#4)

theorem illegalUnder_false {w : Word} : IllegalUnder false w ↔ IllegalWord w := by simp [IllegalUnder]

/-- In a category other than 5 and 9 the canonical word is the word. -/
theorem Answers.of_op {w : Word} {op : BitVec 4} {strict : Bool} {illegal : Prop} {d : Decoded}
    (h : Answers w w illegal d) (hop : opField w = op) (h59 : op ∉ [0x5#4, 0x9#4])
    (hp : IllegalUnder strict w ↔ illegal) : Answers w (canonicalWord w) (IllegalUnder strict w) d :=
  h.congr (if_neg (by simpa [hop] using h59)) hp

theorem DecodeCase.answers {strict : Bool} {w : Word} {d : Decoded} (h : DecodeCase strict w d) :
    Answers w (canonicalWord w) (IllegalUnder strict w) d := by
  cases h with
  | zero hop => exact (decode0_answers w).of_op hop (by decide) (by simp [IllegalUnder, IllegalWord, hop])
  | total hop hi =>
    have legal : ¬IllegalUnder strict w := by simp_all [IllegalUnder, IllegalWord]
    exact (Answers.instr legal hi).of_op rfl (by simp_all) .rfl
  | compare hop hi =>
    refine (decode59_answers strict w _).congr ?_ ?_
    · rw [canonicalWord, if_pos (by simpa using hop), hi]
    · rcases List.mem_pair.1 hop with hop | hop <;> simp [IllegalUnder, IllegalWord, hop]
  | eight hop => exact (decode8_answers hop).of_op hop (by decide) (by simp [IllegalUnder, IllegalWord, hop])
  | keys hop => exact (decodeE_answers hop).of_op hop (by decide) (by simp [IllegalUnder, IllegalWord, hop])
  | misc hop => exact (decodeF_answers hop).of_op hop (by decide) (by simp [IllegalUnder, IllegalWord, hop])

theorem decodeWith_answers (strict : Bool) (w : Word) :
    Answers w (canonicalWord w) (IllegalUnder strict w) (decodeWith strict w) := (decodeWith_cases strict w).answers

theorem encode_of_decodeWith {strict : Bool} {w : Word} {i : Instr} (h : decodeWith strict w = .instr i) :
    encode i = canonicalWord w := (h ▸ decodeWith_answers strict w).encode_eq

theorem eq_of_decodeWith_unknown {strict : Bool} {w u : Word} (h : decodeWith strict w = .unknown u) : u = w :=
  (h ▸ decodeWith_answers strict w).unknown_eq

theorem decode_eq_unknown_iff {w : Word} : decode w = .unknown w ↔ IllegalWord w :=
  (decodeWith_answers false w).eq_unknown_iff.trans illegalUnder_false

/-- Settles O2: whatever the category, an instruction that the decoder answers has the canonical word. -/
theorem encodeOfDecodeIsTheWord : Obligations.EncodeOfDecodeIsTheWord := fun _ _ _ => encode_of_decodeWith

/-- Settles O4: each category's own condition for `Unknown`; the default decoder has none in categories 5 and 9. -/
theorem unknownWordsAreExactlyTheListed : Obligations.UnknownWordsAreExactlyTheListed :=
  fun _ => decode_eq_unknown_iff

/-! ### Categories 5 and 9 (R80) -/

theorem decodeWith_five (strict : Bool) {w : Word} (hop : opField w = 0x5#4) :
    decodeWith strict w = decode59 strict w (.seReg (xField w) (yField w)) := by
  rw [decodeWith, hop]; rfl

theorem decodeWith_nine (strict : Bool) {w : Word} (hop : opField w = 0x9#4) :
    decodeWith strict w = decode59 strict w (.sneReg (xField w) (yField w)) := by
  rw [decodeWith, hop]; rfl

theorem decode59_strict (w : Word) (i : Instr) :
    decode59 true w i = if nField w = 0#4 then .instr i else .unknown w := by
  by_cases h : nField w = 0#4 <;> simp [decode59, h]

/-- Settles O5: both categories are decoded by `decode59`, which without the option looks at no nibble. -/
theorem lowNibbleOfFiveAndNineIsIgnored : Obligations.LowNibbleOfFiveAndNineIsIgnored := by
  refine ⟨fun w hop => ⟨decodeWith_five false hop, ?_⟩, fun w hop => ⟨decodeWith_nine false hop, ?_⟩,
    fun x y => ⟨nField_encodeR .., nField_encodeR ..⟩⟩
  · rw [decodeWith_five true hop, decode59_strict]
  · rw [decodeWith_nine true hop, decode59_strict]

/-! ### The rows of the opcode map (R75) -/

namespace OpRow

variable {r q : OpRow} {w : Word}

theorem selects_iff : r.selects w = true ↔ w &&& r.mask = r.value := beq_iff_eq

/-- A field that the mask of a row covers is in every word of the row as it is in the row's value. -/
theorem field_of_selects (h : r.selects w = true) {lo len : Nat}
    (hmask : r.mask.extractLsb' lo len = BitVec.allOnes len) :
    r.value.extractLsb' lo len = w.extractLsb' lo len := by
  rw [← selects_iff.1 h, BitVec.extractLsb'_and, hmask, BitVec.and_allOnes]

/-- Rows whose values differ in a bit that both masks look at have no word in common. -/
theorem not_selects_both (h : r.value &&& q.mask ≠ q.value &&& r.mask) (w : Word) :
    ¬(r.selects w = true ∧ q.selects w = true) := by
  rintro ⟨hr, hq⟩
  rw [selects_iff] at hr hq
  apply h
  rw [← hr, ← hq, BitVec.and_assoc, BitVec.and_assoc, BitVec.and_comm r.mask]

end OpRow

theorem opRows_disjoint : opRows.Pairwise fun r q => ∀ w, ¬(r.selects w = true ∧ q.selects w = true) := by
  have values_differ : opRows.Pairwise fun r q => r.value &&& q.mask ≠ q.value &&& r.mask := by decide
  exact values_differ.imp OpRow.not_selects_both

theorem opRows_eq_of_selects {r q : OpRow} (hr : r ∈ opRows) (hq : q ∈ opRows) {w : Word} (hrw : r.selects w = true)
    (hqw : q.selects w = true) : r = q := by
  by_contra hne
  have symmetric : Std.Symm fun r q : OpRow => ∀ w, ¬(r.selects w = true ∧ q.selects w = true) :=
    ⟨fun _ _ h w hw => h w hw.symm⟩
  exact opRows_disjoint.forall hr hq hne w ⟨hrw, hqw⟩

/-- The mask of a row covers every field that the decoder looks at in the row's category. -/
theorem opRows_mask {r : OpRow} (hr : r ∈ opRows) : opField r.mask = 0xF#4 ∧
    (opField r.value = 0x0#4 → r.mask = 0xFFFF#16) ∧ (opField r.value = 0x8#4 → nField r.mask = 0xF#4) ∧
    (opField r.value = 0xE#4 ∨ opField r.value = 0xF#4 → nnField r.mask = 0xFF#8) := by
  revert r
  decide

/-- In categories 5 and 9 the category alone selects the row (R80). -/
theorem opRows_mask_five_nine {r : OpRow} (hr : r ∈ opRows) :
    opField r.value = 0x5#4 ∨ opField r.value = 0x9#4 → r.mask = 0xF000#16 := by
  revert r
  decide

theorem opRows_value_legal {r : OpRow} (hr : r ∈ opRows) : ¬IllegalWord r.value := by
  revert r
  unfold IllegalWord
  decide

section
variable {r : OpRow} {w : Word} (hr : r ∈ opRows)
include hr

theorem opField_of_selects (h : r.selects w = true) : opField r.value = opField w := by
  obtain ⟨hop, -⟩ := opRows_mask hr
  exact OpRow.field_of_selects h hop

/-- The fields that make a word illegal are covered by the row's mask, so the row's value would be illegal too. -/
theorem legal_of_selects (h : r.selects w = true) : ¬IllegalWord w := by
  intro hw
  apply opRows_value_legal hr
  obtain ⟨-, hzero, height, hbyte⟩ := opRows_mask hr
  have hop := opField_of_selects hr h
  rcases hw with ⟨hw, hne⟩ | ⟨hw, hn⟩ | ⟨hw, hnn⟩ | ⟨hw, hnn⟩
  · have hword : r.value = w := by
      rw [← OpRow.selects_iff.1 h, hzero (hop.trans hw)]
      exact BitVec.and_allOnes
    exact .inl (hword ▸ ⟨hw, hne⟩)
  · have hfield : nField r.value = nField w := OpRow.field_of_selects h (height (hop.trans hw))
    exact .inr (.inl ⟨hop.trans hw, hfield ▸ hn⟩)
  · have hfield : nnField r.value = nnField w := OpRow.field_of_selects h (hbyte (.inl (hop.trans hw)))
    exact .inr (.inr (.inl ⟨hop.trans hw, hfield ▸ hnn⟩))
  · have hfield : nnField r.value = nnField w := OpRow.field_of_selects h (hbyte (.inr (hop.trans hw)))
    exact .inr (.inr (.inr ⟨hop.trans hw, hfield ▸ hnn⟩))

theorem selects_of_selects_canonicalWord (h : r.selects (canonicalWord w) = true) : r.selects w = true := by
  unfold canonicalWord at h
  split_ifs at h with h59
  · have hop : opField r.value = opField w := (opField_of_selects hr h).trans (opField_and_FFF0 w)
    have hmask := opRows_mask_five_nine hr (hop ▸ h59)
    rw [OpRow.selects_iff, hmask] at h ⊢
    rw [← h, BitVec.and_assoc]
    rfl
  · exact h

end

/-- The canonical word of every instruction selects the row with its mnemonic. -/
theorem selectsItsRow : ∀ i : Instr, Laws.SelectsItsRow.Statement i
  | .cls => Laws.SelectsItsRow.cls
  | .ret => Laws.SelectsItsRow.ret
  | .jp nnn => Laws.SelectsItsRow.jp nnn
  | .call nnn => Laws.SelectsItsRow.call nnn
  | .seImm x nn => Laws.SelectsItsRow.seImm x nn
  | .sneImm x nn => Laws.SelectsItsRow.sneImm x nn
  | .seReg x y => Laws.SelectsItsRow.seReg x y
  | .ldImm x nn => Laws.SelectsItsRow.ldImm x nn
  | .addImm x nn => Laws.SelectsItsRow.addImm x nn
  | .ldReg x y => Laws.SelectsItsRow.ldReg x y
  | .or x y => Laws.SelectsItsRow.or x y
  | .and x y => Laws.SelectsItsRow.and x y
  | .xor x y => Laws.SelectsItsRow.xor x y
  | .addReg x y => Laws.SelectsItsRow.addReg x y
  | .sub x y => Laws.SelectsItsRow.sub x y
  | .shr x y => Laws.SelectsItsRow.shr x y
  | .subn x y => Laws.SelectsItsRow.subn x y
  | .shl x y => Laws.SelectsItsRow.shl x y
  | .sneReg x y => Laws.SelectsItsRow.sneReg x y
  | .ldI nnn => Laws.SelectsItsRow.ldI nnn
  | .jpV0 nnn => Laws.SelectsItsRow.jpV0 nnn
  | .rnd x nn => Laws.SelectsItsRow.rnd x nn
  | .drw x y n => Laws.SelectsItsRow.drw x y n
  | .skp x => Laws.SelectsItsRow.skp x
  | .sknp x => Laws.SelectsItsRow.sknp x
  | .ldVxDt x => Laws.SelectsItsRow.ldVxDt x
  | .ldVxK x => Laws.SelectsItsRow.ldVxK x
  | .ldDtVx x => Laws.SelectsItsRow.ldDtVx x
  | .ldStVx x => Laws.SelectsItsRow.ldStVx x
  | .addI x => Laws.SelectsItsRow.addI x
  | .ldF x => Laws.SelectsItsRow.ldF x
  | .ldB x => Laws.SelectsItsRow.ldB x
  | .ldMemVx x => Laws.SelectsItsRow.ldMemVx x
  | .ldVxMem x => Laws.SelectsItsRow.ldVxMem x

/-- A word that decodes to an instruction selects the instruction's row. -/
theorem exists_row_of_decode {w : Word} {i : Instr} (h : decode w = .instr i) :
    ∃ r ∈ opRows, r.mnemonic = i.mnemonic ∧ r.selects w = true := by
  obtain ⟨r, hr, hm, hs⟩ := selectsItsRow i
  rw [encode_of_decodeWith h] at hs
  exact ⟨r, hr, hm, selects_of_selects_canonicalWord hr hs⟩

theorem exists_decode_of_selects {w : Word} {r : OpRow} (hr : r ∈ opRows) (h : r.selects w = true) :
    ∃ i, decode w = .instr i ∧ i.mnemonic = r.mnemonic := by
  cases hd : decode w with
  | instr i =>
    obtain ⟨q, hq, hm, hs⟩ := exists_row_of_decode hd
    rw [opRows_eq_of_selects hr hq h hs]
    exact ⟨i, rfl, hm.symm⟩
  | unknown v =>
    cases eq_of_decodeWith_unknown hd
    exact absurd (decode_eq_unknown_iff.1 hd) (legal_of_selects hr h)

/-- Settles O3: a word that selects a row is legal, so it decodes to an instruction; that instruction's row is selected
too, so it is the same row (`opRows_disjoint`); a word that selects no row decodes to no instruction. -/
theorem decodeFollowsTheOpcodeRows : Obligations.DecodeFollowsTheOpcodeRows := by
  refine ⟨opRows_disjoint, fun w r => exists_decode_of_selects, fun w hnone => ?_⟩
  cases hd : decode w with
  | instr i =>
    obtain ⟨r, hr, -, hs⟩ := exists_row_of_decode hd
    exact absurd hs (by simp [hnone r hr])
  | unknown v => rw [eq_of_decodeWith_unknown hd]

end Sys2Proof

namespace Sys2Proof.Machine

/-! ### The disassembly (R86) -/

theorem disassembleFrom_length (address : Nat) : ∀ buffer, (disassembleFrom address buffer).length = buffer.length / 2
  | [] | [_] => by simp [disassembleFrom]
  | _ :: _ :: rest => by
    rw [disassembleFrom, List.length_cons, disassembleFrom_length (address + 2) rest]
    exact (Nat.add_div_right rest.length two_pos).symm

theorem disassembleFrom_getElem? (address : Nat) : ∀ (k : Nat) (buffer : List Byte) (h : 2 * k + 1 < buffer.length),
    (disassembleFrom address buffer)[k]? =
      some (disasmItem (address + 2 * k) (wordOfBytes buffer[2 * k] buffer[2 * k + 1]))
  | _, [], h | _, [_], h => by simp at h
  | 0, _ :: _ :: _, _ => rfl
  | k + 1, _ :: _ :: rest, h => by
    rw [disassembleFrom, List.getElem?_cons_succ, disassembleFrom_getElem? (address + 2) k rest (by simp at h; omega)]
    simp [Nat.mul_succ, Nat.add_assoc, Nat.add_comm 2]

/-- Settles O60, by the recursion of `disassembleFrom` over pairs of bytes. -/
theorem disassemblyListsEveryWord : Obligations.DisassemblyListsEveryWord := fun buffer =>
  ⟨disassembleFrom_length 512 buffer, fun k h =>
    ⟨_, wordOfBytes_toNat .., disassembleFrom_getElem? 512 k buffer h⟩⟩

end Sys2Proof.Machine

/-! PROOFS. The control-flow family (spec/40_control_flow.md R100 to R110): what each check of a `STEP` answers, where a
placed word is fetched, how `PC` moves by the classes of R101, and what jumps, calls, returns and skips do. -/

namespace Sys2Proof.Machine

open Sys2Proof.Claims

/-! ### What a `STEP` answers, check by check (R100, R110, R172) -/

section
variable {s : State}

theorem fetch_inRange (hpc : s.pc.toNat ≤ 4094) : outOfRange s.pc.toNat 2 = false :=
  (outOfRange_eq_false ..).2 (.inr (by omega))

theorem step_of_unready (hready : s.ready = false) : step s = .refused .beforeReset := by
  simp [step, nextAction, hready]

theorem step_of_faulted (hready : s.ready = true) (hfault : s.fault ≠ none) : step s = .next s := by
  simp [step, nextAction, hready, Option.isSome_iff_ne_none.2 hfault]

theorem step_of_fetchOutOfRange (hready : s.ready = true) (hfault : s.fault = none) (hpc : 4094 < s.pc.toNat) :
    step s = .next (s.clearRedraw.raise (.fetchOutOfRange s.pc)) := by
  have hfetch : outOfRange s.pc.toNat 2 = true := (outOfRange_iff ..).2 (by omega)
  simp [step, nextAction, hready, hfault, hfetch]

theorem step_of_unknown (hready : s.ready = true) (hfault : s.fault = none) (hpc : s.pc.toNat ≤ 4094) {w : Word}
    (hw : decodeWith s.params.strict59 s.fetchedWord = .unknown w) :
    step s = .next (s.clearRedraw.raise (.illegalInstruction w)) := by
  simp [step, nextAction, hready, hfault, fetch_inRange hpc, hw, decodedAction]

end

/-- Settles O8: the four outcomes of a `STEP` that runs no instruction. -/
theorem stepChecksInTheSpecsOrder : Obligations.StepChecksInTheSpecsOrder := fun _ =>
  ⟨step_of_unready, step_of_faulted, step_of_fetchOutOfRange, fun hready hfault hpc _ => step_of_unknown hready hfault hpc⟩

/-! ### `STEP` at the boundary (R184) -/

section
variable {s t : State}

theorem perform_step_of_next (hrun : s.run ≠ .paused) (h : step s = .next t) :
    perform .step s = .next (t, faultOutput s t) := by
  rw [perform, State.unlessPaused_of_ne hrun, opStep, h]

theorem perform_step_of_refused (hrun : s.run ≠ .paused) {r : Refusal} (h : step s = .refused r) :
    perform .step s = .refused r := by
  rw [perform, State.unlessPaused_of_ne hrun, opStep, h]

theorem faultOutput_eq_faulted_iff (s t : State) (r : FaultRecord) :
    faultOutput s t = [.faulted r] ↔ s.fault = none ∧ t.fault = some r := by
  rcases faultOutput_cases s t with ⟨r', hs, ht, e⟩ | ⟨hnone, e⟩ <;> rw [e]
  · simp [hs, ht]
  · rcases hnone with hs | ht
    · simp [hs]
    · simp [ht]

theorem faultOutput_eq_nil (h : s.fault ≠ none ∨ t.fault = none) : faultOutput s t = [] := by
  rcases faultOutput_cases s t with ⟨r, hs, ht, -⟩ | ⟨-, e⟩
  · simp [hs, ht] at h
  · exact e

end

/-- Settles O7: `step_of_decode`, and the operation's gate and output read off from `step`. -/
theorem stepRunsTheDecodedInstruction : Obligations.StepRunsTheDecodedInstruction :=
  ⟨fun _ _ => step_of_decode,
    fun s t hrun h => ⟨perform_step_of_next hrun h, faultOutput_eq_faulted_iff s t, faultOutput_eq_nil⟩,
    fun _ _ hrun h => perform_step_of_refused hrun h⟩

/-! ### A word placed for the next fetch (R52, R100) -/

theorem tableWord_toNat (w : Word) : tableWord 16 w.toNat = w := by
  rw [tableWord, Nat.mod_eq_of_lt w.isLt, BitVec.ofNat_toNat, BitVec.setWidth_eq]

section
variable {s : State}

/-- The word is laid at `PC` where the fetch is in range, and `PC` stays. -/
theorem State.placeWord_of_inRange (hpc : s.pc.toNat ≤ 4094) (w : Word) :
    s.placeWord w = s.storeBytes s.pc.toNat [highByte w, lowByte w] := by
  simp [State.placeWord, fetch_inRange hpc]

theorem State.withFetchWord_of_inRange (hpc : s.pc.toNat ≤ 4094) (w : Word) :
    s.withFetchWord 16 w.toNat =
      { s with fault := none, ready := true }.storeBytes s.pc.toNat [highByte w, lowByte w] := by
  rw [State.withFetchWord, tableWord_toNat]
  exact State.placeWord_of_inRange (s := { s with fault := none, ready := true }) hpc w

/-- The two bytes of a word stored at `PC` are fetched as that word (R52). -/
theorem State.storeBytes_fetchedWord (hw : Memory.wf s.params.font s.mem = true) (hpc : s.pc.toNat ≤ 4094) (w : Word) :
    (s.storeBytes s.pc.toNat [highByte w, lowByte w]).fetchedWord = w := by
  have hin : s.pc.toNat + [highByte w, lowByte w].length ≤ 4096 := by simp; omega
  have hhigh : (s.storeBytes s.pc.toNat [highByte w, lowByte w]).readByte s.pc.toNat = highByte w :=
    State.storeBytes_readByte_inside hw (j := 0) (by simp) hin
  have hlow : (s.storeBytes s.pc.toNat [highByte w, lowByte w]).readByte (s.pc.toNat + 1) = lowByte w :=
    State.storeBytes_readByte_inside hw (by simp) hin
  rw [State.fetchedWord, State.storeBytes_pc, hhigh, hlow, wordOfBytes_high_low]

/-- An address outside the bytes stored reads as before (R57). -/
theorem State.storeBytes_readByte_outside {a k : Nat} {bs : List Byte} (h : k < a ∨ a + bs.length ≤ k) :
    (s.storeBytes a bs).readByte k = s.readByte k :=
  Memory.read_writeBytes_of_outside _ bs a k s.mem h

end

/-- Settles O16: in range the placed word is stored at `PC` (`State.withFetchWord_of_inRange`), so the `STEP` fetches it
(`State.storeBytes_fetchedWord`) and runs what it decodes to. -/
theorem placedWordIsTheOneStepRuns : Obligations.PlacedWordIsTheOneStepRuns := by
  intro s w i hw hpc hi
  rw [State.withFetchWord_of_inRange hpc]
  refine ⟨step_of_decode rfl rfl hpc ?_, rfl, fun a hhigh hlow => ?_⟩
  · rwa [State.storeBytes_fetchedWord (s := { s with fault := none, ready := true }) hw hpc]
  · exact State.storeBytes_readByte_outside (by simp; omega)

/-! ### How `PC` moves by class (R101) -/

/-- `PC` goes from `p` to `q` as the class says (R101); a `goto` sets it as its instruction's own rule says. -/
def PcMoves : PcClass → (p q : Word) → Prop
  | .goto, _, _ => True
  | .skip, p, q => q = p + 2#16 ∨ q = p + 4#16
  | .hold, p, q => q = p ∨ q = p + 2#16
  | .next, p, q => q = p + 2#16

section
variable {s t : State}

theorem State.skipIf_pc (s : State) (c : Bool) : (s.skipIf c).pc = s.pc + 2#16 ∨ (s.skipIf c).pc = s.pc + 4#16 := by
  cases c
  · exact .inl rfl
  · exact .inr rfl

/-- A key skip that raises no fault moves `PC` as a skip does (R160, R161). -/
theorem State.skipOnKey_pc {k : Byte} {level : Bool} (h : (s.skipOnKey k level).fault = none) :
    (s.skipOnKey k level).pc = s.pc + 2#16 ∨ (s.skipOnKey k level).pc = s.pc + 4#16 := by
  rcases Nat.lt_or_ge k.toNat 16 with hk | hk
  · rw [State.skipOnKey_of_lt hk]; exact s.skipIf_pc _
  · rw [State.skipOnKey_of_ge hk] at h; cases h

/-- A data access that raises no fault leaves the `PC` of its own state (R55). -/
theorem State.withData_pc {n : Nat} (h : (s.withData n t).fault = none) : (s.withData n t).pc = t.pc := by
  rcases s.withData_eq t n with ⟨e, -⟩ | ⟨e, -⟩ <;> rw [e] at h ⊢
  cases h

/-- An instruction that leaves the latch empty moves `PC` by its class. -/
theorem exec_pcMoves {i : Instr} (h : exec i s = .next t) (ht : t.fault = none) : PcMoves (pcClass i) s.pc t.pc := by
  cases i with
  | jp | call | ret | jpV0 => trivial
  | seImm | sneImm | seReg | sneReg => cases h; exact s.skipIf_pc _
  | skp | sknp => cases h; exact State.skipOnKey_pc ht
  | ldVxK x =>
    rcases of_execLdVxK h with ⟨-, rfl⟩ | ⟨k, ks, -, rfl⟩
    · exact .inl rfl
    · exact .inr (State.countKeyDraw_pc _)
  | addReg | sub | shr | subn | shl => rw [of_refusingVfDest h]; rfl
  | drw | ldB | ldMemVx | ldVxMem => cases h; exact State.withData_pc ht
  | _ => cases h; rfl

/-- An instruction that raises a fault leaves `PC` (R171). -/
theorem exec_pc_of_raised {i : Instr} (hs : s.fault = none) (h : exec i s = .next t) (ht : t.fault ≠ none) :
    t.pc = s.pc := by
  rcases exec_fault h hs with hnone | ⟨c, rfl⟩
  · exact absurd hnone ht
  · rfl

end

/-- Settles O47: `exec_pcMoves` read off at the three classes, `exec_pc_of_raised` where a fault was raised. -/
theorem programCounterMovesByClass : Obligations.ProgramCounterMovesByClass := by
  intro i s t hs h
  have hraised := exec_pc_of_raised hs h
  have hmoves := exec_pcMoves h
  refine ⟨hraised, fun ht hc => ?_, fun ht hc => ?_, fun hc => ?_⟩ <;> rw [hc] at hmoves
  · exact hmoves ht
  · exact hmoves ht
  · by_cases ht : t.fault = none
    · exact hmoves ht
    · exact .inl (hraised ht)

/-! ### Jumps, calls and returns (R102, R103, R104, R109) -/

/-- Settles O17: the two targets as numbers (`addrOperand_toNat`, `jumpRelTarget_toNat`). -/
theorem jumpsGoToTheirTarget : Obligations.JumpsGoToTheirTarget := fun s nnn =>
  ⟨⟨_, rfl, addrOperand_toNat nnn, rfl⟩, ⟨_, rfl, jumpRelTarget_toNat s nnn, rfl⟩⟩

section
variable {s : State}

theorem exec_call_of_lt (h : s.sp.val < 16) (nnn : Addr) :
    exec (.call nnn) s = .next { s with
      stack := s.stack.set s.sp.val (s.pc + 2#16), sp := ⟨s.sp.val + 1, by omega⟩, pc := addrOperand nnn } :=
  congrArg _ (State.call_of_lt h _)

theorem exec_call_of_full (h : s.sp.val = 16) (nnn : Addr) : exec (.call nnn) s = .next (s.raise .stackOverflow) :=
  congrArg _ (State.call_of_full h _)

theorem exec_ret_of_pos (k : Nat) (h : s.sp.val = k + 1) (hk : k < 16) :
    exec .ret s = .next { s with sp := ⟨k, by omega⟩, pc := s.stack[k] } :=
  congrArg _ (State.ret_of_pos k h hk)

theorem exec_ret_of_empty (h : s.sp.val = 0) : exec .ret s = .next (s.raise .stackUnderflow) :=
  congrArg _ (State.ret_of_empty h)

end

/-- Settles O18: `exec_call_of_lt` and `exec_call_of_full`. -/
theorem callPushesTheReturnAddress : Obligations.CallPushesTheReturnAddress := fun _ nnn =>
  ⟨fun h => ⟨_, exec_call_of_lt h nnn, Vector.getElem_set_self _, fun _ hj => Vector.getElem_set_ne h _ hj.symm, rfl,
    addrOperand_toNat nnn, rfl⟩, fun h => exec_call_of_full h nnn⟩

/-- Settles O19: `exec_ret_of_pos` and `exec_ret_of_empty`. -/
theorem returnPopsTheNewestEntry : Obligations.ReturnPopsTheNewestEntry := fun _ =>
  ⟨fun k h hk => ⟨_, exec_ret_of_pos k h hk, rfl, rfl, rfl⟩, exec_ret_of_empty⟩

/-- Settles O20: the call leaves `SP + 1` entries, so the return pops the one at the old `SP`, which the call wrote. -/
theorem returnAfterCallResumesAfterTheCall : Obligations.ReturnAfterCallResumesAfterTheCall := fun s nnn h =>
  ⟨_, _, exec_call_of_lt h nnn, exec_ret_of_pos s.sp.val rfl h, Vector.getElem_set_self _,
    fun _ hj => Vector.getElem_set_ne h _ hj.symm, rfl⟩

/-! ### The skip-comparisons (R105 to R108) -/

/-- A skip on a decided condition is the skip of that condition. -/
theorem State.skipsWhen_skipIf (s : State) {c : Bool} {p : Prop} (h : c = true ↔ p) : SkipsWhen s (s.skipIf c) p := by
  cases c with
  | true => exact ⟨fun _ => rfl, fun hp => absurd (h.1 rfl) hp, rfl⟩
  | false => exact ⟨fun hp => absurd (h.2 hp) Bool.false_ne_true, fun _ => rfl, rfl⟩

/-- Settles O21: each form skips on its comparison. -/
theorem skipsAddTwoWhenTheirConditionHolds : Obligations.SkipsAddTwoWhenTheirConditionHolds := fun s _ _ _ =>
  ⟨⟨_, rfl, s.skipsWhen_skipIf beq_iff_eq⟩, ⟨_, rfl, s.skipsWhen_skipIf bne_iff_ne⟩,
    ⟨_, rfl, s.skipsWhen_skipIf beq_iff_eq⟩, ⟨_, rfl, s.skipsWhen_skipIf bne_iff_ne⟩⟩

end Sys2Proof.Machine

/-! PROOFS. The arithmetic family (spec/41_alu.md R120 to R133): the register a plain form writes, the result and the flag
a flag-writing form writes, and the one option under which an instruction is refused. -/

namespace Sys2Proof.Machine

open Sys2Proof.Claims

/-! ### The option `REFUSE_VF_DEST` (R6, R133) -/

/-- The five flag-writing forms (R126 to R130). -/
theorem flagDest_eq_some_iff {i : Instr} {x : Reg} : i.flagDest = some x ↔
    ∃ y, i = .addReg x y ∨ i = .sub x y ∨ i = .shr x y ∨ i = .subn x y ∨ i = .shl x y := by
  constructor
  · intro h
    cases i with
    | addReg _ y | sub _ y | shr _ y | subn _ y | shl _ y => cases h; exact ⟨y, by simp⟩
    | _ => cases h
  · rintro ⟨y, rfl | rfl | rfl | rfl | rfl⟩ <;> rfl

theorem wellFormed_eq_false_iff {p : Params} {i : Instr} :
    i.wellFormed p = false ↔ p.refuseVfDest = true ∧ i.flagDest = some 15 := by
  simp [Instr.wellFormed]

section
variable {s t : State} {i : Instr} {x : Reg}

theorem refusingVfDest_of_wellFormed (hdest : i.flagDest = some x) (hwf : i.wellFormed s.params = true) :
    refusingVfDest s x t = .next t := by
  rcases refusingVfDest_eq s t x with ⟨e, -⟩ | ⟨-, hon, rfl⟩
  · exact e
  · exact absurd hwf (Bool.eq_false_iff.1 (wellFormed_eq_false_iff.2 ⟨hon, hdest⟩))

theorem refusingVfDest_of_illFormed (hdest : i.flagDest = some x) (hill : i.wellFormed s.params = false) :
    refusingVfDest s x t = .refused .vfDestination := by
  obtain ⟨hon, h15⟩ := wellFormed_eq_false_iff.1 hill
  rcases refusingVfDest_eq s t x with ⟨-, hallowed⟩ | ⟨e, -⟩
  · exact absurd ⟨hon, Option.some.inj (hdest.symm.trans h15)⟩ hallowed
  · exact e

end

/-- An instruction with a flag is its next state behind the option; every other one answers a next state. -/
theorem exec_cases (i : Instr) (s : State) :
    ∃ t, (∃ x, i.flagDest = some x ∧ exec i s = refusingVfDest s x t) ∨ (i.flagDest = none ∧ exec i s = .next t) := by
  cases i with
  | addReg x | sub x | shr x | subn x | shl x => exact ⟨_, .inl ⟨x, rfl, rfl⟩⟩
  | ldVxK x =>
    cases hkeys : s.pressedKeys with
    | nil => exact ⟨s, .inr ⟨rfl, by simp only [exec, execLdVxK, hkeys]⟩⟩
    | cons k ks => exact ⟨_, .inr ⟨rfl, by simp only [exec, execLdVxK, hkeys]; rfl⟩⟩
  | _ => exact ⟨_, .inr ⟨rfl, rfl⟩⟩

/-- Settles O28: an instruction is refused only behind the option (`exec_cases`), and the ill-formed ones are those whose
flag destination is VF. -/
theorem onlyTheVfOptionEverRefuses : Obligations.OnlyTheVfOptionEverRefuses := by
  intro s i
  refine ⟨fun hwf => ?_, fun hill => ?_, wellFormed_eq_false_iff.trans (and_congr_right' flagDest_eq_some_iff)⟩ <;>
    obtain ⟨t, ⟨x, hdest, hexec⟩ | ⟨hdest, hexec⟩⟩ := exec_cases i s
  · exact ⟨t, hexec.trans (refusingVfDest_of_wellFormed hdest hwf)⟩
  · exact ⟨t, hexec⟩
  · exact hexec.trans (refusingVfDest_of_illFormed hdest hill)
  · exact absurd (hdest.symm.trans (wellFormed_eq_false_iff.1 hill).2) nofun

/-! ### A result and its flag, then `next` (R126 to R130, R132, R133) -/

/-- A flagged result, with the result and the flag as the numbers they stand for. -/
theorem State.writesRegThenFlag_writeFlagged (s : State) (x : Reg) {b : Byte} {f : Bool} {result : Nat} {flag : Prop}
    (hb : b.toNat = result) (hf : f = true ↔ flag) :
    WritesRegThenFlag s (s.writeFlagged x b f) x result flag := by
  have hreg (r : Reg) := s.writeFlagged_reg x r b f
  have hvf : (s.writeFlagged x b f).reg 15 = flagByte f := (hreg 15).trans (if_pos rfl)
  refine ⟨fun hx => ?_, fun h => ?_, fun h => ?_, fun r hrx hr => ?_, rfl, rfl⟩
  · exact (congrArg _ ((hreg x).trans ((if_neg hx).trans (if_pos rfl)))).trans hb
  · exact hvf.trans ((flagByte_eq_one f).2 (hf.2 h))
  · exact hvf.trans ((flagByte_eq_zero f).2 (Bool.eq_false_iff.2 (mt hf.1 h)))
  · exact (hreg r).trans ((if_neg hr).trans (if_neg hrx))

theorem carryFlag_iff (a b : Byte) : carryFlag a b = true ↔ 255 < a.toNat + b.toNat := decide_eq_true_iff

theorem noBorrowFlag_iff (a b : Byte) : noBorrowFlag a b = true ↔ b.toNat ≤ a.toNat := decide_eq_true_iff

theorem shiftedOutRight_iff (a : Byte) : shiftedOutRight a = true ↔ a.toNat % 2 = 1 := by
  rw [shiftedOutRight, BitVec.getLsbD, Nat.testBit_zero, decide_eq_true_iff]

theorem shiftedOutLeft_iff (a : Byte) : shiftedOutLeft a = true ↔ 128 ≤ a.toNat := by
  rw [shiftedOutLeft, BitVec.getLsbD, Nat.testBit_eq_decide_div_mod_eq, decide_eq_true_iff]; omega

theorem byte_sub_toNat (a b : Byte) : (a - b).toNat = (256 + a.toNat - b.toNat) % 256 := by
  rw [BitVec.toNat_sub]; omega

theorem byte_shiftRight_one_toNat (a : Byte) : (a >>> 1).toNat = a.toNat / 2 := by
  rw [BitVec.toNat_ushiftRight, Nat.shiftRight_one]

theorem byte_shiftLeft_one_toNat (a : Byte) : (a <<< 1).toNat = a.toNat * 2 % 256 := by
  rw [BitVec.toNat_shiftLeft, Nat.shiftLeft_eq]

/-- Settles O25: the carry is the sum above a byte (`carryFlag_iff`). -/
theorem addRegisterWrapsAndSetsCarry : Obligations.AddRegisterWrapsAndSetsCarry := fun s x _ hwf =>
  ⟨_, refusingVfDest_of_wellFormed rfl hwf,
    s.writesRegThenFlag_writeFlagged x (BitVec.toNat_add ..) (carryFlag_iff ..)⟩

/-- Settles O26: the two forms differ in which register is the minuend. -/
theorem subtractsWrapAndSetNoBorrow : Obligations.SubtractsWrapAndSetNoBorrow := fun s x _ =>
  ⟨fun hwf => ⟨_, refusingVfDest_of_wellFormed rfl hwf,
    s.writesRegThenFlag_writeFlagged x (byte_sub_toNat ..) (noBorrowFlag_iff ..)⟩,
   fun hwf => ⟨_, refusingVfDest_of_wellFormed rfl hwf,
    s.writesRegThenFlag_writeFlagged x (byte_sub_toNat ..) (noBorrowFlag_iff ..)⟩⟩

/-- Settles O27: for the source `shiftOperand`, whichever register `SHIFT_SRC` names. -/
theorem shiftsMoveOneBitIntoVf : Obligations.ShiftsMoveOneBitIntoVf := by
  intro s x y a ha
  have hsource : a = (shiftOperand s x y).toNat := by
    rw [ha, shiftOperand]; cases s.params.shiftSrc <;> rfl
  rw [hsource]
  exact ⟨fun hwf => ⟨_, refusingVfDest_of_wellFormed rfl hwf,
      s.writesRegThenFlag_writeFlagged x (byte_shiftRight_one_toNat _) (shiftedOutRight_iff _)⟩,
    fun hwf => ⟨_, refusingVfDest_of_wellFormed rfl hwf,
      s.writesRegThenFlag_writeFlagged x (byte_shiftLeft_one_toNat _) (shiftedOutLeft_iff _)⟩⟩

/-! ### One register, then `next` (R120 to R125, R131) -/

theorem State.writesReg_setReg (s : State) (x : Reg) (b : Byte) : WritesReg s (s.setReg x b).advance x b :=
  ⟨s.setReg_reg_self x b, fun _ h => s.setReg_reg_of_ne h b, rfl, rfl⟩

theorem writesReg_reg {s t : State} {x : Reg} {b : Byte} (h : WritesReg s t x b) : WritesReg s t x (t.reg x) :=
  h.1.symm ▸ h

/-- Settles O22: the source is the immediate or `V[Y]` (`State.writesReg_setReg`). -/
theorem loadsWriteTheNamedRegister : Obligations.LoadsWriteTheNamedRegister := fun s x _ _ =>
  ⟨⟨_, rfl, s.writesReg_setReg x _⟩, ⟨_, rfl, s.writesReg_setReg x _⟩⟩

/-- Settles O23: a sum of bytes is the sum modulo 256. -/
theorem addImmediateWrapsWithoutFlag : Obligations.AddImmediateWrapsWithoutFlag := by
  intro s x nn
  have hwrites := s.writesReg_setReg x (s.reg x + nn)
  refine ⟨_, rfl, ?_, writesReg_reg hwrites⟩
  rw [hwrites.1, BitVec.toNat_add]

/-- Settles O24: the byte operations act on each bit. -/
theorem logicActsBitByBitWithoutFlag : Obligations.LogicActsBitByBitWithoutFlag := by
  intro s x y
  have hwrites (b : Byte) := s.writesReg_setReg x b
  refine ⟨⟨_, rfl, writesReg_reg (hwrites _), fun k => ?_⟩,
    ⟨_, rfl, writesReg_reg (hwrites _), fun k => ?_⟩,
    ⟨_, rfl, writesReg_reg (hwrites _), fun k => ?_⟩⟩
  · rw [(hwrites _).1, BitVec.getLsbD_or]
  · rw [(hwrites _).1, BitVec.getLsbD_and]
  · rw [(hwrites _).1, BitVec.getLsbD_xor]

/-- Settles O29: the register written, and the mask clears every bit outside `NN`. -/
theorem randomMasksAFreshDraw : Obligations.RandomMasksAFreshDraw := by
  intro s x nn
  have hreg : (s.setReg x (randomOperand s &&& nn)).advance.countDraw.reg x = Config.randomByte s.draws &&& nn :=
    s.setReg_reg_self x _
  refine ⟨_, rfl, hreg, ?_, fun _ h => s.setReg_reg_of_ne h _, rfl, rfl, rfl⟩
  rw [hreg, BitVec.and_assoc, BitVec.and_not_self]
  exact BitVec.and_zero

end Sys2Proof.Machine

/-! PROOFS. The index and memory family (spec/42_index_memory.md R140 to R145): what LD I, ADD I and LD F leave in `I`, and
what the three data accesses do in range and beyond it. -/

namespace Sys2Proof.Machine

open Sys2Proof.Claims

/-! ### The index register (R140 to R142) -/

theorem add_byteOperand_toNat (a : Word) (b : Byte) : (a + byteOperand b).toNat = (a.toNat + b.toNat) % 65536 := by
  rw [BitVec.toNat_add, byteOperand_toNat]

/-- Settles O30: the three values of `I` as numbers (`addrOperand_toNat`, `add_byteOperand_toNat`,
`fontAddress_toNat`). -/
theorem indexInstructionsWriteOnlyTheIndex : Obligations.IndexInstructionsWriteOnlyTheIndex := fun s x nnn =>
  ⟨⟨_, rfl, addrOperand_toNat nnn, rfl, rfl⟩, ⟨_, rfl, add_byteOperand_toNat s.i (s.reg x), rfl, rfl⟩,
    ⟨_, rfl, fontAddress_toNat (s.reg x), rfl, rfl⟩⟩

/-! ### The data accesses in range and beyond it (R55, R143 to R145) -/

section
variable {s : State} (x : Reg)

theorem exec_ldVxMem_of_inRange (h : s.i.toNat + x.val ≤ 4095) :
    exec (.ldVxMem x) s = .next { s with v := loadedRegisters s x }.advance :=
  congrArg _ (State.withData_of_inRange (.inr h) _)

theorem exec_ldB_of_outOfRange (h : 4095 < s.i.toNat + 2) :
    exec (.ldB x) s = .next (s.raise (.memOutOfRange (s.i.toNat + 2))) :=
  congrArg _ (State.withData_of_outOfRange (n := 3) (by decide) h _)

theorem exec_ldMemVx_of_outOfRange (h : 4095 < s.i.toNat + x.val) :
    exec (.ldMemVx x) s = .next (s.raise (.memOutOfRange (s.i.toNat + x.val))) :=
  congrArg _ (State.withData_of_outOfRange (n := x.val + 1) (Nat.le_add_left ..) h _)

theorem exec_ldVxMem_of_outOfRange (h : 4095 < s.i.toNat + x.val) :
    exec (.ldVxMem x) s = .next (s.raise (.memOutOfRange (s.i.toNat + x.val))) :=
  congrArg _ (State.withData_of_outOfRange (n := x.val + 1) (Nat.le_add_left ..) h _)

end

/-! ### The two stores (R143, R144) -/

/-- No digit is cut off: each is below 10. -/
theorem bcdDigits_toNat (b : Byte) :
    (bcdDigits b)[0].toNat = b.toNat / 100 ∧ (bcdDigits b)[1].toNat = b.toNat / 10 % 10 ∧
      (bcdDigits b)[2].toNat = b.toNat % 10 := by
  refine ⟨Nat.mod_eq_of_lt ?_, Nat.mod_eq_of_lt ?_, Nat.mod_eq_of_lt ?_⟩ <;> omega

/-- After a dump of V0 to VX at `a`, the byte at offset `r` is `V[r]` (R144). -/
theorem State.storeBytes_registerList_readByte {s : State} {x r : Reg} {a : Nat}
    (hw : Memory.wf s.params.font s.mem = true) (hin : a + x.val ≤ 4095) (hr : r.val ≤ x.val) :
    (s.storeBytes a (registerList s x)).readByte (a + r.val) = s.reg r := by
  have hlen := registerList_length s x
  rw [State.storeBytes_readByte_inside hw (by omega) (by omega), registerList_getElem]

/-- Settles O31: in range the three digits (`bcdDigits_toNat`) are stored at `I` (`exec_ldB_of_inRange`); beyond, the
access raises. -/
theorem bcdStoresThreeDigits : Obligations.BcdStoresThreeDigits := by
  refine fun s x => ⟨fun hw hin => ?_, exec_ldB_of_outOfRange x⟩
  obtain ⟨hhundreds, htens, hones⟩ := bcdDigits_toNat (s.reg x)
  have hread (j : Nat) (hj : j < 3) :
      ((s.storeBytes s.i.toNat (bcdDigits (s.reg x))).readByte (s.i.toNat + j)).toNat = (bcdDigits (s.reg x))[j].toNat :=
    congrArg _ (State.storeBytes_readByte_inside hw hj (by rw [bcdDigits_length]; omega))
  refine ⟨_, exec_ldB_of_inRange x hin, (hread 0 (by decide)).trans hhundreds, (hread 1 (by decide)).trans htens,
    (hread 2 (by decide)).trans hones, fun a ha => ?_, rfl, rfl⟩
  rw [State.advance_readByte, State.storeBytes_readByte_outside]
  rw [bcdDigits_length]; omega

/-- Settles O32: in range V0 to VX are stored at `I` (`State.storeBytes_registerList_readByte`); beyond, the access
raises. -/
theorem registerDumpStoresV0ToVx : Obligations.RegisterDumpStoresV0ToVx := by
  refine fun s x => ⟨fun hw hin => ⟨_, exec_ldMemVx_of_inRange x hin,
    fun r hr => State.storeBytes_registerList_readByte hw hin hr, fun a ha => ?_, rfl, rfl⟩,
    exec_ldMemVx_of_outOfRange x⟩
  rw [State.advance_readByte, State.storeBytes_readByte_outside]
  rw [registerList_length]; omega

/-! ### The register load, alone and after a dump (R145) -/

/-- Settles O33: in range each register is the byte at its offset or as it was (`loadedRegisters_getElem`); beyond, the
access raises. -/
theorem registerLoadReadsV0ToVx : Obligations.RegisterLoadReadsV0ToVx := fun s x =>
  ⟨fun hin => ⟨_, exec_ldVxMem_of_inRange x hin, fun r hr => (loadedRegisters_getElem s x r).trans (if_pos hr),
    fun r hr => (loadedRegisters_getElem s x r).trans (if_neg (Nat.not_le.2 hr)), rfl, rfl⟩,
    exec_ldVxMem_of_outOfRange x⟩

/-- Settles O34: the load reads at each offset (O33) what the dump stored there (O32), as neither moves `I`. -/
theorem loadAfterDumpRestoresRegisters : Obligations.LoadAfterDumpRestoresRegisters := by
  intro s x v hw hin
  obtain ⟨t, hdump, hstored, -, -, ht⟩ := (registerDumpStoresV0ToVx s x).1 hw hin
  have hi : t.i = s.i := by rw [ht]
  obtain ⟨u, hload, hloaded, -⟩ := (registerLoadReadsV0ToVx { t with v := v } x).1 (hi ▸ hin)
  refine ⟨t, u, hdump, hload, fun r hr => ?_⟩
  have hread : u.reg r = t.readByte (t.i.toNat + r.val) := hloaded r hr
  rw [hread, hi, hstored r hr]

end Sys2Proof.Machine

/-! PROOFS. The display family (spec/43_display.md R150 to R152): the cells a sprite lights (`SpriteLit`) are the ones the
draw engine inverts and tests for a collision; the two statements about draws follow from that. -/

namespace Sys2Proof.Machine

open Sys2Proof.Claims

/-- Settles O36: every cell of the cleared framebuffer is 0 (`Framebuffer.cell_clear`). -/
theorem clearScreenZeroesEveryCell : Obligations.ClearScreenZeroesEveryCell := fun _ =>
  ⟨_, rfl, Framebuffer.cell_clear, rfl, rfl, rfl⟩

/-! ### The draw engine in terms of the cells a sprite lights (R151, R152) -/

theorem eq_wrapX_iff {n : Nat} {cx : Fin 64} : cx = wrapX n ↔ cx.val = n % 64 := Fin.ext_iff

theorem eq_wrapY_iff {n : Nat} {cy : Fin 32} : cy = wrapY n ↔ cy.val = n % 32 := Fin.ext_iff

section
variable {s t : State} {x y : Reg}

/-- The engine's own test of a pixel is the statement's. -/
theorem litRow_iff_spriteLit {n : Nat} {cx : Fin 64} {cy : Fin 32} :
    litRow (spriteRow s) (s.reg x).toNat (s.reg y).toNat n cx cy = true ↔ SpriteLit s x y n cx cy := by
  simp only [litRow, litCol, List.any_eq_true, List.mem_range, Bool.and_eq_true, decide_eq_true_eq, eq_wrapX_iff,
    eq_wrapY_iff, spriteBit, spriteRow]
  constructor
  · rintro ⟨row, hrow, hy, col, hcol, hx, hbit⟩
    exact ⟨row, col, hrow, hcol, hx, hy, hbit⟩
  · rintro ⟨row, col, hrow, hcol, hx, hy, hbit⟩
    exact ⟨row, hrow, hy, col, hcol, hx, hbit⟩

/-- Which cells a sprite lights rests on its coordinates, `I` and memory alone. -/
theorem spriteLit_congr (hx : t.reg x = s.reg x) (hy : t.reg y = s.reg y) (hi : t.i = s.i)
    (hmem : ∀ a, t.readByte a = s.readByte a) {n : Nat} {cx : Fin 64} {cy : Fin 32} :
    SpriteLit t x y n cx cy ↔ SpriteLit s x y n cx cy := by
  simp only [SpriteLit, hx, hy, hi, hmem]

variable {n : Fin 16}

theorem drawnSprite_cell (cx : Fin 64) (cy : Fin 32) : (drawnSprite x y n.val s).fb.cell cx cy =
    (s.fb.cell cx cy ^^ litRow (spriteRow s) (s.reg x).toNat (s.reg y).toNat n.val cx cy) :=
  drawRows_cell _ _ _ _ cx cy n.val (by omega)

theorem drawnSprite_cell_of_lit {cx : Fin 64} {cy : Fin 32} (h : SpriteLit s x y n.val cx cy) :
    (drawnSprite x y n.val s).fb.cell cx cy = !s.fb.cell cx cy := by
  rw [drawnSprite_cell, litRow_iff_spriteLit.2 h, Bool.xor_true]

theorem drawnSprite_cell_of_not_lit {cx : Fin 64} {cy : Fin 32} (h : ¬SpriteLit s x y n.val cx cy) :
    (drawnSprite x y n.val s).fb.cell cx cy = s.fb.cell cx cy := by
  rw [drawnSprite_cell, Bool.eq_false_iff.2 (mt litRow_iff_spriteLit.1 h), Bool.xor_false]

/-- A draw finds a collision exactly when a cell it lights was set. -/
theorem drawnSprite_hit_iff : (drawnSprite x y n.val s).hit = true ↔
    ∃ cx cy, SpriteLit s x y n.val cx cy ∧ s.fb.cell cx cy = true := by
  rw [drawnSprite, drawRows_hit _ _ _ _ n.val (by omega)]
  simp only [Bool.false_or, List.any_eq_true, List.mem_range, Bool.and_eq_true, spriteBit, spriteRow]
  constructor
  · rintro ⟨row, hrow, col, hcol, hset, hbit⟩
    exact ⟨_, _, ⟨row, col, hrow, hcol, rfl, rfl, hbit⟩, hset⟩
  · rintro ⟨cx, cy, ⟨row, col, hrow, hcol, hx, hy, hbit⟩, hset⟩
    obtain rfl := eq_wrapX_iff.2 hx
    obtain rfl := eq_wrapY_iff.2 hy
    exact ⟨row, hrow, col, hcol, hset, hbit⟩

end

/-! ### One draw, and the same draw again (R151) -/

/-- Settles O37: in range the cells and the collision are the engine's (`drawnSprite_cell_of_lit`,
`drawnSprite_hit_iff`); beyond, the draw raises. -/
theorem drawXorsTheSpriteAndReportsCollision : Obligations.DrawXorsTheSpriteAndReportsCollision := by
  refine fun s x y n => ⟨fun hin => ?_, exec_drw_of_not_inRange⟩
  have hreg (r : Reg) := State.setVf_reg { s with fb := (drawnSprite x y n.val s).fb, redraw := true } r
    (drawnSprite x y n.val s).hit
  refine ⟨_, exec_drw_of_inRange hin, fun _ _ => drawnSprite_cell_of_lit, fun _ _ => drawnSprite_cell_of_not_lit,
    fun hhit => ?_, fun hmiss => ?_, fun r hr => (hreg r).trans (if_neg hr), rfl, rfl, rfl⟩
  · exact (hreg 15).trans ((flagByte_eq_one _).2 (drawnSprite_hit_iff.2 hhit))
  · exact (hreg 15).trans ((flagByte_eq_zero _).2 (Bool.eq_false_iff.2 (mt drawnSprite_hit_iff.1 hmiss)))

/-- Settles O38: both draws light the same cells (`spriteLit_congr`), so by O37 each is inverted twice or never, and the
second draw finds a lit cell set where the first found it 0. -/
theorem drawingTwiceRestoresTheFramebuffer : Obligations.DrawingTwiceRestoresTheFramebuffer := by
  intro s x y n hx hy hin
  obtain ⟨t, ht, hlit, hunlit, -, -, hreg, -, -, hframe⟩ := (drawXorsTheSpriteAndReportsCollision s x y n).1 hin
  have hi : t.i = s.i := by rw [hframe]
  have hmem (a : Nat) : t.readByte a = s.readByte a := by rw [hframe]; rfl
  have hsame (cx : Fin 64) (cy : Fin 32) : SpriteLit t x y n.val cx cy ↔ SpriteLit s x y n.val cx cy :=
    spriteLit_congr (hreg x hx) (hreg y hy) hi hmem
  have hin' : InRange t n.val := by rwa [InRange, hi]
  obtain ⟨u, hu, hlit', hunlit', hhit, hmiss, -⟩ := (drawXorsTheSpriteAndReportsCollision t x y n).1 hin'
  have hcollides : (∃ cx cy, SpriteLit t x y n.val cx cy ∧ t.fb.cell cx cy = true) ↔
      ∃ cx cy, SpriteLit s x y n.val cx cy ∧ s.fb.cell cx cy = false := by
    refine exists_congr fun cx => exists_congr fun cy => ?_
    rw [hsame cx cy]
    refine and_congr_right fun h => ?_
    rw [hlit cx cy h, Bool.not_eq_true']
  refine ⟨t, u, ht, hu, Framebuffer.ext_cell fun cx cy => ?_, ?_⟩
  · by_cases h : SpriteLit s x y n.val cx cy
    · rw [hlit' cx cy ((hsame cx cy).2 h), hlit cx cy h, Bool.not_not]
    · rw [hunlit' cx cy (mt (hsame cx cy).1 h), hunlit cx cy h]
  · rw [← hcollides]
    refine ⟨fun hone => ?_, hhit⟩
    by_contra hnone
    exact absurd ((hmiss hnone).symm.trans hone) (by decide)

end Sys2Proof.Machine

/-! PROOFS. The keypad and timer family (spec/44_keypad_timers.md R160 to R165): which skip a key test is, what
wait-for-key answers and that polling is a fixed point of `STEP`, and the two timers along a run of `TICK`s
(spec/60_exceptions.md R176). -/

namespace Sys2Proof.Machine

open Sys2Proof.Claims

/-! ### The key skips (R160, R161) -/

section
variable {s : State} {x : Reg}

/-- Where a byte is the number of a key, the key skip is the skip on that key. -/
theorem State.skipOnKey_of_toNat_eq {b : Byte} {k : Reg} (h : b.toNat = k.val) (level : Bool) :
    s.skipOnKey b level = s.skipIf (s.keyDown k == level) := by
  have hlt : b.toNat < 16 := h ▸ k.isLt
  obtain rfl : k = ⟨b.toNat, hlt⟩ := Fin.ext h.symm
  exact State.skipOnKey_of_lt hlt level

theorem exec_skp_of_key {k : Reg} (h : (s.reg x).toNat = k.val) :
    exec (.skp x) s = .next (s.skipIf (s.keyDown k == true)) :=
  congrArg _ (State.skipOnKey_of_toNat_eq h true)

theorem exec_sknp_of_key {k : Reg} (h : (s.reg x).toNat = k.val) :
    exec (.sknp x) s = .next (s.skipIf (s.keyDown k == false)) :=
  congrArg _ (State.skipOnKey_of_toNat_eq h false)

theorem exec_skp_of_outOfRange (h : 15 < (s.reg x).toNat) :
    exec (.skp x) s = .next (s.raise (.keyIndexOutOfRange (s.reg x))) :=
  congrArg _ (State.skipOnKey_of_ge h true)

theorem exec_sknp_of_outOfRange (h : 15 < (s.reg x).toNat) :
    exec (.sknp x) s = .next (s.raise (.keyIndexOutOfRange (s.reg x))) :=
  congrArg _ (State.skipOnKey_of_ge h false)

end

/-- Settles O39: each form skips on its level of the named key, and raises where no key is named. -/
theorem keySkipsTestTheLatch : Obligations.KeySkipsTestTheLatch := fun s _ =>
  ⟨fun _ hk => ⟨⟨_, exec_skp_of_key hk, s.skipsWhen_skipIf beq_iff_eq⟩,
    ⟨_, exec_sknp_of_key hk, s.skipsWhen_skipIf beq_iff_eq⟩⟩,
    fun h => ⟨exec_skp_of_outOfRange h, exec_sknp_of_outOfRange h⟩⟩

/-! ### Wait-for-key (R162) -/

section
variable {s : State} {k : Reg} {ks : List Reg}

/-- A state with a key down has a first pressed key. -/
theorem State.exists_pressedKeys_eq_cons {j : Reg} (h : s.keyDown j = true) : ∃ k ks, s.pressedKeys = k :: ks :=
  List.exists_cons_of_ne_nil (List.ne_nil_of_mem ((s.mem_pressedKeys j).2 h))

theorem exec_ldVxK_of_noKey (h : ∀ k, s.keyDown k = false) (x : Reg) : exec (.ldVxK x) s = .next s := by
  rw [exec, execLdVxK, s.pressedKeys_eq_nil.2 h]

theorem exec_ldVxK_of_pressed (h : s.pressedKeys = k :: ks) (x : Reg) :
    exec (.ldVxK x) s = .next (s.setReg x (BitVec.ofNat 8 (selectedKey s k ks).val)).advance.countKeyDraw := by
  rw [exec, execLdVxK, h]

theorem selectedKey_down (h : s.pressedKeys = k :: ks) : s.keyDown (selectedKey s k ks) = true :=
  (s.mem_pressedKeys _).1 (h ▸ selectedKey_mem s k ks)

theorem selectedKey_of_lowest (h : s.params.keySelect = .lowest) : selectedKey s k ks = k := by
  simp [selectedKey, h]

theorem State.countKeyDraw_draws_of_lowest (h : s.params.keySelect = .lowest) : s.countKeyDraw.draws = s.draws := by
  simp [State.countKeyDraw, h]

/-- Reporting a key changes no more than the count of draws beyond what wait-for-key writes. -/
theorem State.countKeyDraw_eq_setDraws (s : State) : s.countKeyDraw = { s with draws := s.countKeyDraw.draws } := by
  cases h : s.params.keySelect <;> simp [State.countKeyDraw, State.countDraw, h]

end

/-- The number of a key fits the register it is reported in. -/
theorem keyByte_toNat (k : Reg) : (BitVec.ofNat 8 k.val).toNat = k.val :=
  Nat.mod_eq_of_lt (by omega)

/-- Settles O40: with no key down the instruction holds; else the reported key is a pressed one (`selectedKey_down`),
the first (`State.pressedKeys_head_le`) under `KEY_SELECT` = lowest. -/
theorem waitForKeyHoldsOrReportsAPressedKey : Obligations.WaitForKeyHoldsOrReportsAPressedKey := by
  refine fun s x => ⟨fun hnone => exec_ldVxK_of_noKey hnone x, fun j hj => ?_⟩
  obtain ⟨k, ks, hkeys⟩ := State.exists_pressedKeys_eq_cons hj
  obtain ⟨hx, hother, hpc, hframe⟩ := s.writesReg_setReg x (BitVec.ofNat 8 (selectedKey s k ks).val)
  refine ⟨_, selectedKey s k ks, exec_ldVxK_of_pressed hkeys x, selectedKey_down hkeys, fun hlow => ⟨?_, ?_⟩, ?_,
    fun r hr => ?_, ?_, ?_⟩
  · rw [selectedKey_of_lowest hlow]
    exact State.pressedKeys_head_le hkeys j hj
  · exact State.countKeyDraw_draws_of_lowest hlow
  · rw [State.countKeyDraw_reg, hx, keyByte_toNat]
  · rw [State.countKeyDraw_reg, hother r hr]
  · rw [State.countKeyDraw_pc, hpc]
  · rw [State.countKeyDraw_v, State.countKeyDraw_pc]
    exact State.countKeyDraw_eq_setDraws _

/-! ### Polling (R162, R212) -/

/-- A state that a `STEP` leaves as it is stays for any number of `STEP`s. -/
theorem core_run_of_step_eq_self {s : State} (h : step s = .next s) (k : Nat) :
    Host.Core.run Sys2Proof.core k s = .next s := by
  induction k with
  | zero => rfl
  | succ k ih => rw [core_run_succ h, ih]

theorem step_of_waitingForKey {s : State} {x : Reg} (hready : s.ready = true) (hfault : s.fault = none)
    (hpc : s.pc.toNat ≤ 4094) (hwait : decodeWith s.params.strict59 s.fetchedWord = .instr (.ldVxK x))
    (hnone : ∀ j, s.keyDown j = false) : step s = .next s.clearRedraw := by
  rw [step_of_decode hready hfault hpc hwait, exec_ldVxK_of_noKey (s := s.clearRedraw) hnone]

/-- Settles O41: the first `STEP` only clears the redraw flag (`step_of_waitingForKey`), and the state it leaves is one
that a further such `STEP` keeps. -/
theorem waitForKeyPollsUntilAKeyIsDown : Obligations.WaitForKeyPollsUntilAKeyIsDown := by
  intro s x k hready hfault hpc hwait hnone
  have hpoll : step s = .next s.clearRedraw := step_of_waitingForKey hready hfault hpc hwait hnone
  have hagain : step s.clearRedraw = .next s.clearRedraw :=
    step_of_waitingForKey (s := s.clearRedraw) hready hfault hpc hwait hnone
  rw [core_run_succ hpoll]
  exact core_run_of_step_eq_self hagain k

/-! ### The timer instructions (R163 to R165) -/

/-- Settles O42: each form writes one register (`State.writesReg_setReg`) or one timer. -/
theorem timerInstructionsMoveOneByte : Obligations.TimerInstructionsMoveOneByte := fun s x =>
  ⟨⟨_, rfl, s.writesReg_setReg x s.dt⟩, ⟨_, rfl, rfl, rfl, rfl⟩, ⟨_, rfl, rfl, rfl, rfl⟩⟩

/-! ### One `TICK` (R176, R177) -/

/-- The delay timer goes down by one and stops at 0. -/
theorem tickDelay_toNat (dt : Byte) : (tickDelay dt).toNat = dt.toNat - 1 := by
  unfold tickDelay
  split
  next h => simp [h]
  next h => bv_omega

/-- One `TICK` and `k` more take `k + 1` off the delay timer. -/
theorem tickDelay_toNat_sub (dt : Byte) (k : Nat) : (tickDelay dt).toNat - k = dt.toNat - (k + 1) := by
  rw [tickDelay_toNat, Nat.sub_sub, Nat.add_comm]

theorem count_ne_zero {n : Byte} (h : 0 < n.toNat) : n ≠ 0#8 := by
  rintro rfl
  exact absurd h (by decide)

/-- A count above 0 goes down by one. -/
theorem tickSound_of_pos {n : Byte} (h : 0 < n.toNat) : tickSound (.count n) = .count (n - 1#8) :=
  if_neg (count_ne_zero h)

theorem soundFires_of_pos {n : Byte} (h : 0 < n.toNat) : soundFires (.count n) = false :=
  beq_eq_false_iff_ne.2 fun e => count_ne_zero h (SoundTimer.count.inj e)

section
variable {s : State}

theorem perform_tick_of_live (hready : s.ready = true) (hfault : s.fault = none) (hrun : s.run ≠ .paused) :
    perform .tick s = .next (s.ticked, if soundFires s.st then [.soundTrigger] else []) := by
  rw [perform, State.unlessPaused_of_ne hrun, opTick, State.whenLive_of_live hready hfault]

end

/-! ### A run of `TICK`s (R211, R215) -/

section
variable {s : State}

/-- An answered operation before an answered sequence: their outputs in order (R5). -/
theorem runOps_cons_of_next {o : Op} {os : List Op} {t u : State} {out out' : List Output}
    (ho : perform o s = .next (t, out)) (hos : runOps os t = .next (u, out')) :
    runOps (o :: os) s = .next (u, out ++ out') := by
  simp only [runOps, ho, hos]

/-- With the sound timer idle, `TICK`s move the delay timer alone. -/
theorem runOps_ticks_of_inactive (hready : s.ready = true) (hfault : s.fault = none) (hrun : s.run ≠ .paused)
    (hst : s.st = .inactive) (k : Nat) :
    ∃ t, runOps (List.replicate k .tick) s = .next (t, []) ∧ t.st = .inactive ∧ t.dt.toNat = s.dt.toNat - k ∧
      t = { s with dt := t.dt, st := t.st } := by
  induction k generalizing s with
  | zero => exact ⟨s, rfl, hst, rfl, rfl⟩
  | succ k ih =>
    have htick : perform .tick s = .next (s.ticked, []) := by
      rw [perform_tick_of_live hready hfault hrun, hst]; rfl
    have hidle : s.ticked.st = .inactive := by rw [State.ticked_st, hst]; rfl
    obtain ⟨t, hrest, htst, htdt, hframe⟩ := ih (s := s.ticked) hready hfault hrun hidle
    exact ⟨t, runOps_cons_of_next htick hrest, htst, htdt.trans (tickDelay_toNat_sub s.dt k), hframe⟩

end

/-- Settles O44, by induction on the number of `TICK`s: a `TICK` that finds a count above 0 leaves one less for the
rest, and the one that finds 0 fires and leaves an idle timer (`runOps_ticks_of_inactive`). -/
theorem soundTriggerFiresOnceAfterItsCount : Obligations.SoundTriggerFiresOnceAfterItsCount := by
  intro s n k hready hfault hrun hst
  induction k generalizing s n with
  | zero => exact ⟨s, rfl, fun _ => ⟨n, hst, rfl⟩, fun h => absurd h (Nat.not_lt_zero _), rfl, rfl⟩
  | succ k ih =>
    have htick := perform_tick_of_live hready hfault hrun
    have hdelay : s.ticked.dt.toNat - k = s.dt.toNat - (k + 1) := tickDelay_toNat_sub s.dt k
    rw [hst] at htick
    rcases Nat.eq_zero_or_pos n.toNat with hzero | hpos
    · obtain rfl : n = 0#8 := BitVec.eq_of_toNat_eq hzero
      have hidle : s.ticked.st = .inactive := by rw [State.ticked_st, hst]; rfl
      obtain ⟨t, hrest, htst, htdt, hframe⟩ := runOps_ticks_of_inactive (s := s.ticked) hready hfault hrun hidle k
      exact ⟨t, runOps_cons_of_next htick hrest, fun h => absurd h (Nat.not_succ_le_zero k), fun _ => htst,
        htdt.trans hdelay, hframe⟩
    · have hcount : s.ticked.st = .count (n - 1#8) := by rw [State.ticked_st, hst, tickSound_of_pos hpos]
      have hn : n.toNat = (n - 1#8).toNat + 1 := by bv_omega
      obtain ⟨t, hrest, hbefore, hafter, htdt, hframe⟩ := ih s.ticked _ hready hfault hrun hcount
      rw [soundFires_of_pos hpos] at htick
      simp only [hn, Nat.add_le_add_iff_right, Nat.add_lt_add_iff_right, Nat.add_sub_add_right]
      exact ⟨t, runOps_cons_of_next htick hrest, hbefore, hafter, htdt.trans hdelay, hframe⟩

end Sys2Proof.Machine

/-! PROOFS. The exceptions family (spec/60_exceptions.md R170 to R186). What an operation other than `STEP` and a reset can
do is said once (`perform_event`), and so is that `CYCLE_HZ` is carried along by every operation
(`perform_setCycleHz`). -/

namespace Sys2Proof.Machine

open Sys2Proof.Claims

/-! ### Raised faults (R170 to R172) -/

/-- A `STEP` that latches a fault only raised it, the redraw flag cleared before. -/
theorem step_of_raised {s t : State} (hs : s.fault = none) (h : step s = .next t) (ht : t.fault ≠ none) :
    ∃ c, t = s.clearRedraw.raise c := by
  obtain ⟨-, ⟨hlatched, -⟩ | ⟨-, hraise⟩ | ⟨-, -, i, -, he⟩⟩ := step_cases h
  · exact absurd hs hlatched
  · exact hraise
  · exact (exec_fault he hs).resolve_left ht

/-- Settles O9: the state is `s.clearRedraw.raise c` (`step_of_raised`), whose record names `PC`. -/
theorem raisedFaultIsPrecise : Obligations.RaisedFaultIsPrecise := by
  intro s t r hs h hr
  obtain ⟨c, rfl⟩ := step_of_raised hs h (by simp [hr])
  cases hr
  exact ⟨rfl, rfl⟩

/-- The condition under which `i` raises a fault, from its row of R170; the instructions named by no row raise none. -/
def FaultCondition (s : State) : Instr → Prop
  | .call _ => s.sp.val = 16
  | .ret => s.sp.val = 0
  | .drw _ _ n => ¬InRange s n.val
  | .ldB _ => ¬InRange s 3
  | .ldMemVx x | .ldVxMem x => ¬InRange s (x.val + 1)
  | .skp x | .sknp x => 15 < (s.reg x).toNat
  | _ => False

section
variable {s t : State}

theorem State.call_raises_iff (hs : s.fault = none) (a : Word) : (s.call a).fault ≠ none ↔ s.sp.val = 16 := by
  rcases Nat.lt_or_ge s.sp.val 16 with h | h
  · rw [State.call_of_lt h]; exact iff_of_false (not_not.2 hs) h.ne
  · have hfull : s.sp.val = 16 := by omega
    rw [State.call_of_full hfull]; exact iff_of_true (Option.some_ne_none _) hfull

theorem State.ret_raises_iff (hs : s.fault = none) : s.ret.fault ≠ none ↔ s.sp.val = 0 := by
  rcases Nat.eq_zero_or_eq_succ_pred s.sp.val with h | h
  · rw [State.ret_of_empty h]; exact iff_of_true (Option.some_ne_none _) h
  · rw [State.ret_of_pos _ h (by omega)]; exact iff_of_false (not_not.2 hs) (by omega)

theorem State.skipOnKey_raises_iff (hs : s.fault = none) (k : Byte) (level : Bool) :
    (s.skipOnKey k level).fault ≠ none ↔ 15 < k.toNat := by
  rcases Nat.lt_or_ge k.toNat 16 with h | h
  · rw [State.skipOnKey_of_lt h]; exact iff_of_false (not_not.2 ((s.skipIf_fault _).trans hs)) (by omega)
  · rw [State.skipOnKey_of_ge h]; exact iff_of_true (Option.some_ne_none _) h

theorem State.withData_raises_iff (ht : t.fault = none) (n : Nat) : (s.withData n t).fault ≠ none ↔ ¬InRange s n := by
  rcases s.withData_eq t n with ⟨e, hin⟩ | ⟨e, hpos, hout⟩ <;> rw [e]
  · exact iff_of_false (not_not.2 ht) (not_not.2 hin)
  · exact iff_of_true (Option.some_ne_none _) (by unfold InRange; omega)

/-- An instruction raises a fault exactly under its condition. -/
theorem exec_raises_iff {i : Instr} (hs : s.fault = none) (h : exec i s = .next t) :
    t.fault ≠ none ↔ FaultCondition s i := by
  cases i with
  | call => cases h; exact State.call_raises_iff hs _
  | ret => cases h; exact State.ret_raises_iff hs
  | drw | ldB | ldMemVx | ldVxMem => cases h; exact State.withData_raises_iff (by exact hs) _
  | skp | sknp => cases h; exact State.skipOnKey_raises_iff hs _ _
  | seImm | sneImm | seReg | sneReg =>
    cases h; exact iff_of_false (not_not.2 ((s.skipIf_fault _).trans hs)) not_false
  | addReg | sub | shr | subn | shl => rw [of_refusingVfDest h]; exact iff_of_false (not_not.2 hs) not_false
  | ldVxK x =>
    refine iff_of_false (not_not.2 ?_) not_false
    rcases of_execLdVxK h with ⟨-, rfl⟩ | ⟨k, ks, -, rfl⟩
    · exact hs
    · exact (State.countKeyDraw_fault _).trans hs
  | _ => cases h; exact iff_of_false (not_not.2 hs) not_false

end

/-- Settles O10: the codes by `Fault.code`; the conditions of the table are `FaultCondition`, instruction by instruction
(`exec_raises_iff`). -/
theorem faultsAreRaisedExactlyByTheTable : Obligations.FaultsAreRaisedExactlyByTheTable := by
  refine ⟨fun _ _ _ => ⟨rfl, rfl, rfl, rfl, rfl, rfl⟩, fun i s t hs h => (exec_raises_iff hs h).trans ?_⟩
  cases i <;> simp [FaultCondition]

/-! ### The operations other than `STEP` and a reset (R173, R176 to R180) -/

/-- What such an operation does when it is answered: nothing, or, with no fault latched, its one change. -/
inductive EventEffect (s : State) : State → List Output → Prop where
  /-- The operation goes through to no effect. -/
  | nothing : EventEffect s s []
  /-- `TICK` (R176). -/
  | ticks (hs : s.fault = none) : EventEffect s s.ticked (if soundFires s.st then [.soundTrigger] else [])
  /-- `SETKEY` (R178). -/
  | setsKeys (hs : s.fault = none) (key : Vector Bool 16) : EventEffect s { s with key := key } []
  /-- `SAMPLE` with the redraw flag set (R179). -/
  | publishes (hs : s.fault = none) : EventEffect s s.clearRedraw [.snapshot s.fb]
  /-- `PAUSE` and `RESUME` (R180). -/
  | setsRun (hs : s.fault = none) (run : RunState) :
    EventEffect s { s with run := run } (lifecycleOutput s.run run)

section
variable {s t : State} {out : List Output}

theorem opTick_effect (h : opTick s = .next (t, out)) : EventEffect s t out := by
  obtain ⟨-, ⟨-, e⟩ | ⟨hs, e⟩⟩ := State.whenLive_cases h <;> cases e
  · exact .nothing
  · exact .ticks hs

theorem opSetKey_effect {index : Nat} {pressed : Bool} (h : opSetKey index pressed s = .next (t, out)) :
    EventEffect s t out := by
  unfold opSetKey at h
  split_ifs at h
  obtain ⟨-, ⟨-, e⟩ | ⟨hs, e⟩⟩ := State.whenLive_cases h <;> cases e
  · exact .nothing
  · exact .setsKeys hs _

theorem opSample_effect (h : opSample s = .next (t, out)) : EventEffect s t out := by
  obtain ⟨-, ⟨-, e⟩ | ⟨hs, e⟩⟩ := State.whenLive_cases h
  · cases e; exact .nothing
  · split_ifs at e <;> cases e
    · exact .publishes hs
    · exact .nothing

theorem opPause_effect (h : opPause s = .next (t, out)) : EventEffect s t out := by
  unfold opPause at h
  split_ifs at h with hc <;> cases h
  · exact .setsRun hc.2 _
  · exact .nothing

theorem opResume_effect (h : opResume s = .next (t, out)) : EventEffect s t out := by
  unfold opResume at h
  split_ifs at h with hc <;> cases h
  · exact .setsRun hc.2 _
  · exact .nothing

theorem perform_event {o : Op} (ho : NoReset o) (hstep : o ≠ .step) (h : perform o s = .next (t, out)) :
    EventEffect s t out := by
  cases o with
  | reset | start | restart => exact ho.elim
  | step => exact absurd rfl hstep
  | tick => exact opTick_effect (State.of_unlessPaused h)
  | setKey => exact opSetKey_effect h
  | sample => exact opSample_effect (State.of_unlessPaused h)
  | pause => exact opPause_effect h
  | resume => exact opResume_effect h

end

/-- Settles O53: each change an event can make (`perform_event`) spares the program's state. -/
theorem eventsLeaveTheProgramsStateAlone : Obligations.EventsLeaveTheProgramsStateAlone := by
  intro o s t out ho hstep h
  cases perform_event ho hstep h <;> exact ⟨rfl, rfl, rfl, rfl, rfl, rfl, rfl, rfl, rfl, rfl, rfl, rfl⟩

/-! ### Each operation at the boundary, in the states the table names (R176 to R180, R185) -/

section
variable {s : State}

theorem perform_tick_of_faulted (hready : s.ready = true) (hfault : s.fault ≠ none) (hrun : s.run ≠ .paused) :
    perform .tick s = .next (s, []) := by
  rw [perform, State.unlessPaused_of_ne hrun, opTick, State.whenLive_of_faulted hready hfault]

theorem perform_sample_of_faulted (hready : s.ready = true) (hfault : s.fault ≠ none) (hrun : s.run ≠ .paused) :
    perform .sample s = .next (s, []) := by
  rw [perform, State.unlessPaused_of_ne hrun, opSample, State.whenLive_of_faulted hready hfault]

theorem perform_sample_of_live (hready : s.ready = true) (hfault : s.fault = none) (hrun : s.run ≠ .paused) :
    perform .sample s = if s.redraw then .next (s.clearRedraw, [.snapshot s.fb]) else .next (s, []) := by
  rw [perform, State.unlessPaused_of_ne hrun, opSample, State.whenLive_of_live hready hfault]
  rfl

theorem perform_setKey_of_lt (hready : s.ready = true) {index : Nat} (h : index < 16) (pressed : Bool) :
    perform (.setKey index pressed) s = s.whenLive (.next ({ s with key := s.key.set index pressed }, [])) := by
  simp [perform, opSetKey, hready, h]

theorem perform_setKey_of_ge (hready : s.ready = true) {index : Nat} (h : 15 < index) (pressed : Bool) :
    perform (.setKey index pressed) s = .refused .keyIndexOutsideContract := by
  have hout : ¬index < 16 := by omega
  simp [perform, opSetKey, hready, hout]

theorem perform_reset_of_fits {rom : List Byte} (h : rom.length ≤ 3584) (s : State) :
    perform (.reset rom) s = .next (s.afterReset rom, []) :=
  if_pos ((romFits_iff rom).2 h)

theorem perform_start_of_fits {rom : List Byte} (h : rom.length ≤ 3584) (s : State) :
    perform (.start rom) s = .next ({ s.afterReset rom with rom := some rom, run := .running },
      lifecycleOutput s.run .running) :=
  if_pos ((romFits_iff rom).2 h)

theorem perform_pause_of_running (hrun : s.run = .running) (hfault : s.fault = none) :
    perform .pause s = .next ({ s with run := .paused }, [.lifecycle .paused]) := by
  rw [perform, opPause, if_pos ⟨hrun, hfault⟩, setRun, hrun]
  rfl

theorem perform_pause_of_ne (hrun : s.run ≠ .running) : perform .pause s = .next (s, []) :=
  if_neg fun h => hrun h.1

theorem perform_resume_of_paused (hrun : s.run = .paused) (hfault : s.fault = none) :
    perform .resume s = .next ({ s with run := .running }, [.lifecycle .running]) := by
  rw [perform, opResume, if_pos ⟨hrun, hfault⟩, setRun, hrun]
  rfl

theorem perform_resume_of_ne (hrun : s.run ≠ .paused) : perform .resume s = .next (s, []) :=
  if_neg fun h => hrun h.1

end

/-! ### A latched fault (R31, R171) -/

section
variable {s t : State} {out : List Output}

theorem perform_step_of_faulted (hready : s.ready = true) (hfault : s.fault ≠ none) (hrun : s.run ≠ .paused) :
    perform .step s = .next (s, []) := by
  rw [perform_step_of_next hrun (step_of_faulted hready hfault), faultOutput_eq_nil (.inl hfault)]

theorem opStep_of_faulted (hfault : s.fault ≠ none) (h : opStep s = .next (t, out)) : t = s ∧ out = [] := by
  unfold opStep at h
  split at h <;> cases h
  next hs =>
    obtain ⟨-, ⟨-, rfl⟩ | ⟨hnone, -⟩ | ⟨hnone, -⟩⟩ := step_cases hs
    · exact ⟨rfl, faultOutput_eq_nil (.inl hfault)⟩
    · exact absurd hnone hfault
    · exact absurd hnone hfault

/-- With a fault latched an operation that is no reset changes nothing and outputs nothing. -/
theorem perform_of_faulted {o : Op} (hfault : s.fault ≠ none) (ho : NoReset o) (h : perform o s = .next (t, out)) :
    t = s ∧ out = [] := by
  by_cases hstep : o = .step
  · subst hstep
    exact opStep_of_faulted hfault (State.of_unlessPaused h)
  · cases perform_event ho hstep h with
    | nothing => exact ⟨rfl, rfl⟩
    | ticks hs | setsKeys hs | publishes hs | setsRun hs => exact absurd hs hfault

/-- An answered sequence is an answered operation and an answered rest (R5). -/
theorem of_runOps_cons {o : Op} {os : List Op} {r : State × List Output} (h : runOps (o :: os) s = .next r) :
    ∃ t out u out', perform o s = .next (t, out) ∧ runOps os t = .next (u, out') ∧ r = (u, out ++ out') := by
  unfold runOps at h
  split at h
  next t out ho =>
    split at h <;> cases h
    next u out' hos => exact ⟨t, out, u, out', ho, hos, rfl⟩
  · cases h
  · cases h

theorem runOps_of_faulted {os : List Op} (hfault : s.fault ≠ none) (hos : ∀ o ∈ os, NoReset o)
    (h : runOps os s = .next (t, out)) : t = s ∧ out = [] := by
  induction os generalizing t out with
  | nil => cases h; exact ⟨rfl, rfl⟩
  | cons o os ih =>
    obtain ⟨ho, hos⟩ := List.forall_mem_cons.1 hos
    obtain ⟨t', out', u, out'', hfirst, hrest, e⟩ := of_runOps_cons h
    obtain ⟨rfl, rfl⟩ := perform_of_faulted hfault ho hfirst
    obtain ⟨rfl, rfl⟩ := ih hos hrest
    cases e
    exact ⟨rfl, rfl⟩

end

/-- Settles O11: no operation but a reset acts under a latched fault (`runOps_of_faulted`), and those that complete are
answered with the state as it is. -/
theorem faultedMachineIsFrozen : Obligations.FaultedMachineIsFrozen := by
  refine ⟨fun os s t out => runOps_of_faulted, fun s hready hfault => ⟨fun hrun => ?_, fun k p => ?_, ?_, ?_⟩⟩
  · exact ⟨perform_step_of_faulted hready hfault hrun, perform_tick_of_faulted hready hfault hrun,
      perform_sample_of_faulted hready hfault hrun⟩
  · rw [perform_setKey_of_lt hready k.isLt, State.whenLive_of_faulted hready hfault]
  · exact fun _ p h => perform_setKey_of_ge hready h p
  · exact fun _ h => ⟨_, perform_reset_of_fits h s, rfl⟩

/-! ### `TICK`, `SETKEY` and `SAMPLE` in a live state (R176 to R179) -/

/-- Settles O43: the answer is `perform_tick_of_live`; the timers by `tickDelay_toNat` and by the cases of `tickSound`. -/
theorem tickCountsBothTimers : Obligations.TickCountsBothTimers := by
  intro s hready hfault hrun
  refine ⟨_, _, perform_tick_of_live hready hfault hrun, tickDelay_toNat s.dt, fun n hn hpos => ?_, fun hn => ?_,
    fun hn => ?_, rfl⟩ <;> rw [State.ticked_st, hn]
  · refine ⟨⟨_, tickSound_of_pos hpos, by bv_omega⟩, ?_⟩
    rw [soundFires_of_pos hpos]; rfl
  · exact ⟨rfl, rfl⟩
  · exact ⟨rfl, rfl⟩

/-- Settles O51: an index below 16 sets one entry of the latch (`perform_setKey_of_lt`), any other is refused. -/
theorem setKeyWritesOneFlag : Obligations.SetKeyWritesOneFlag := by
  refine fun s pressed hready hfault => ⟨fun k => ?_, fun _ h => perform_setKey_of_ge hready h pressed⟩
  rw [perform_setKey_of_lt hready k.isLt, State.whenLive_of_live hready hfault]
  exact ⟨_, rfl, Vector.getElem_set_self k.isLt,
    fun j hj => Vector.getElem_set_ne k.isLt j.isLt (Fin.val_ne_of_ne hj.symm), rfl⟩

/-- Settles O52: the two branches of `perform_sample_of_live`. -/
theorem samplePublishesOnlyWhenRedrawIsSet : Obligations.SamplePublishesOnlyWhenRedrawIsSet := by
  intro s hready hfault hrun
  rw [perform_sample_of_live hready hfault hrun]
  exact ⟨fun h => if_pos h, fun h => if_neg (Bool.eq_false_iff.1 h)⟩

/-! ### Run control (R180, R185, R186, R201) -/

/-- Settles O56: `START` installs the reset values one by one (`State.afterReset`), and the empty ROM lists no byte. -/
theorem resetStateIsTheImageOfStart : Obligations.ResetStateIsTheImageOfStart := fun s =>
  ⟨_, perform_start_of_fits (Nat.zero_le _) s⟩

/-- Settles O57: the rows of the table, each operation's own lemma. -/
theorem runControlFollowsTheTable : Obligations.RunControlFollowsTheTable := fun s =>
  ⟨fun _ h => ⟨_, perform_reset_of_fits h s, perform_start_of_fits h s⟩,
    fun rom h => by simp only [perform, opRestart, h],
    fun h => by simp only [perform, opRestart, h],
    fun hfault => ⟨fun h => perform_pause_of_running h hfault, perform_pause_of_ne,
      fun h => perform_resume_of_paused h hfault, perform_resume_of_ne⟩⟩

/-- Settles O58: the gate refuses while paused, and `RESUME` undoes what `PAUSE` did to `run`. -/
theorem pausedMachineRunsNoCycle : Obligations.PausedMachineRunsNoCycle := by
  refine fun s => ⟨fun h => ⟨State.unlessPaused_of_paused h _, State.unlessPaused_of_paused h _,
    State.unlessPaused_of_paused h _⟩, fun hrun hfault => ?_⟩
  have hback : { s with run := .running } = s := by rw [← hrun]
  have hresume := perform_resume_of_paused (s := { s with run := .paused }) rfl hfault
  rw [hback] at hresume
  exact runOps_cons_of_next (perform_pause_of_running hrun hfault) (runOps_cons_of_next hresume rfl)

/-- Settles O59: before the first `RESET` the precondition of R185 refuses, in the state `Initial`, which gates nothing. -/
theorem nothingButResetBeforeTheFirstReset : Obligations.NothingButResetBeforeTheFirstReset := by
  rintro s ⟨hready, hinitial, -⟩
  have hrun : s.run ≠ .paused := by simp [hinitial]
  refine ⟨perform_step_of_refused hrun (step_of_unready hready), ?_, ?_, fun k p => if_pos hready,
    fun _ h => ⟨_, perform_reset_of_fits h s, rfl⟩⟩
  · rw [perform, State.unlessPaused_of_ne hrun, opTick, State.whenLive_of_unready hready]
  · rw [perform, State.unlessPaused_of_ne hrun, opSample, State.whenLive_of_unready hready]

/-! ### The cycle rate (R181, R220) -/

/-- `s` built with another `CYCLE_HZ`. -/
def State.setCycleHz (hz : Nat) (s : State) : State := { s with params := { s.params with cycleHz := hz } }

/-- `f` applied to the next state of an outcome. -/
def mapNext {σ : Type} (f : σ → σ) : Host.Outcome σ Fault Refusal → Host.Outcome σ Fault Refusal
  | .next s => .next (f s)
  | .fault c => .fault c
  | .refused r => .refused r

section
variable (hz : Nat) (s t : State)

theorem State.skipIf_setCycleHz (c : Bool) : (s.setCycleHz hz).skipIf c = (s.skipIf c).setCycleHz hz := by
  cases c <;> rfl

theorem State.skipOnKey_setCycleHz (k : Byte) (level : Bool) :
    (s.setCycleHz hz).skipOnKey k level = (s.skipOnKey k level).setCycleHz hz := by
  rcases Nat.lt_or_ge k.toNat 16 with h | h
  · rw [State.skipOnKey_of_lt h, State.skipOnKey_of_lt h]; exact State.skipIf_setCycleHz hz s _
  · rw [State.skipOnKey_of_ge h, State.skipOnKey_of_ge h]; rfl

theorem State.withData_setCycleHz {u : State} (hu : u = t.setCycleHz hz) (n : Nat) :
    (s.setCycleHz hz).withData n u = (s.withData n t).setCycleHz hz := by
  rw [hu, State.withData, State.withData, apply_ite (State.setCycleHz hz)]
  rfl

theorem State.call_setCycleHz (a : Word) : (s.setCycleHz hz).call a = (s.call a).setCycleHz hz := by
  rw [State.call, State.call, apply_dite (State.setCycleHz hz)]
  rfl

theorem State.ret_setCycleHz : (s.setCycleHz hz).ret = s.ret.setCycleHz hz := by
  rw [State.ret, State.ret, apply_dite (State.setCycleHz hz)]
  rfl

theorem refusingVfDest_setCycleHz {u : State} (hu : u = t.setCycleHz hz) (x : Reg) :
    refusingVfDest (s.setCycleHz hz) x u = mapNext (State.setCycleHz hz) (refusingVfDest s x t) := by
  rw [hu, refusingVfDest, refusingVfDest, apply_ite (mapNext (State.setCycleHz hz))]
  rfl

theorem State.countKeyDraw_setCycleHz : (s.setCycleHz hz).countKeyDraw = s.countKeyDraw.setCycleHz hz := by
  have hparams : (s.setCycleHz hz).params.keySelect = s.params.keySelect := rfl
  unfold State.countKeyDraw
  rw [hparams]
  cases s.params.keySelect <;> rfl

theorem execLdVxK_setCycleHz (x : Reg) :
    execLdVxK x (s.setCycleHz hz) = mapNext (State.setCycleHz hz) (execLdVxK x s) := by
  have hpressed : (s.setCycleHz hz).pressedKeys = s.pressedKeys := rfl
  cases h : s.pressedKeys with
  | nil => simp only [execLdVxK, hpressed, h, mapNext]
  | cons k ks =>
    simp only [execLdVxK, hpressed, h, mapNext]
    exact congrArg _ (State.countKeyDraw_setCycleHz hz (s.setReg x _).advance)

/-- An instruction carries `CYCLE_HZ` along. -/
theorem exec_setCycleHz (i : Instr) : exec i (s.setCycleHz hz) = mapNext (State.setCycleHz hz) (exec i s) := by
  cases i with
  | seImm | sneImm | seReg | sneReg => exact congrArg _ (State.skipIf_setCycleHz hz s _)
  | skp | sknp => exact congrArg _ (State.skipOnKey_setCycleHz hz s _ _)
  | call => exact congrArg _ (State.call_setCycleHz hz s _)
  | ret => exact congrArg _ (State.ret_setCycleHz hz s)
  | addReg | sub | shr | subn | shl => exact refusingVfDest_setCycleHz hz s _ (by rfl) _
  | drw | ldB | ldMemVx | ldVxMem => exact congrArg _ (State.withData_setCycleHz hz s _ (by rfl) _)
  | ldVxK x => exact execLdVxK_setCycleHz hz s x
  | _ => rfl

theorem step_setCycleHz : step (s.setCycleHz hz) = mapNext (State.setCycleHz hz) (step s) := by
  have haction : nextAction (s.setCycleHz hz) = nextAction s := rfl
  unfold step
  rw [haction]
  cases nextAction s with
  | execute i => exact exec_setCycleHz hz s.clearRedraw i
  | _ => rfl

/-- An answer with its next state built with another `CYCLE_HZ`, its outputs as they are. -/
def withCycleHz (k : OpResult) : OpResult := mapNext (fun r => (r.1.setCycleHz hz, r.2)) k

theorem State.unlessPaused_setCycleHz (k : OpResult) :
    (s.setCycleHz hz).unlessPaused (withCycleHz hz k) = withCycleHz hz (s.unlessPaused k) := by
  by_cases h : s.run = .paused
  · rw [State.unlessPaused_of_paused h, State.unlessPaused_of_paused (s := s.setCycleHz hz) h]; rfl
  · rw [State.unlessPaused_of_ne h, State.unlessPaused_of_ne (s := s.setCycleHz hz) h]

theorem State.whenLive_setCycleHz (k : OpResult) :
    (s.setCycleHz hz).whenLive (withCycleHz hz k) = withCycleHz hz (s.whenLive k) := by
  rw [State.whenLive, State.whenLive, apply_ite (withCycleHz hz), apply_ite (withCycleHz hz)]
  rfl

theorem opStep_setCycleHz : opStep (s.setCycleHz hz) = withCycleHz hz (opStep s) := by
  unfold opStep
  rw [step_setCycleHz]
  cases step s <;> rfl

theorem opTick_setCycleHz : opTick (s.setCycleHz hz) = withCycleHz hz (opTick s) := by
  rw [opTick, opTick, ← State.whenLive_setCycleHz]
  rfl

theorem opSetKey_setCycleHz (index : Nat) (pressed : Bool) :
    opSetKey index pressed (s.setCycleHz hz) = withCycleHz hz (opSetKey index pressed s) := by
  rw [opSetKey, opSetKey, apply_ite (withCycleHz hz), apply_dite (withCycleHz hz)]
  simp only [← State.whenLive_setCycleHz]
  rfl

theorem opSample_setCycleHz : opSample (s.setCycleHz hz) = withCycleHz hz (opSample s) := by
  rw [opSample, opSample, ← State.whenLive_setCycleHz, apply_ite (withCycleHz hz)]
  rfl

theorem opStart_setCycleHz (rom : List Byte) :
    opStart rom (s.setCycleHz hz) = withCycleHz hz (opStart rom s) := by
  rw [opStart, opStart, apply_ite (withCycleHz hz)]
  rfl

theorem opRestart_setCycleHz : opRestart (s.setCycleHz hz) = withCycleHz hz (opRestart s) := by
  have hrom : (s.setCycleHz hz).rom = s.rom := rfl
  unfold opRestart
  rw [hrom]
  cases s.rom with
  | none => rfl
  | some rom => exact opStart_setCycleHz hz s rom

/-- Every operation carries `CYCLE_HZ` along. -/
theorem perform_setCycleHz (o : Op) : perform o (s.setCycleHz hz) = withCycleHz hz (perform o s) := by
  cases o with
  | step => rw [perform, perform, opStep_setCycleHz, State.unlessPaused_setCycleHz]
  | tick => rw [perform, perform, opTick_setCycleHz, State.unlessPaused_setCycleHz]
  | sample => rw [perform, perform, opSample_setCycleHz, State.unlessPaused_setCycleHz]
  | setKey index pressed => exact opSetKey_setCycleHz hz s index pressed
  | start rom => exact opStart_setCycleHz hz s rom
  | restart => exact opRestart_setCycleHz hz s
  | reset => rw [perform, perform, opReset, opReset, apply_ite (withCycleHz hz)]; rfl
  | pause => rw [perform, perform, opPause, opPause, apply_ite (withCycleHz hz)]; rfl
  | resume => rw [perform, perform, opResume, opResume, apply_ite (withCycleHz hz)]; rfl

end

/-- Settles O54: every operation carries `CYCLE_HZ` along (`perform_setCycleHz`). -/
theorem nothingDependsOnTheCycleRate : Obligations.NothingDependsOnTheCycleRate := fun o s _ _ hz h =>
  (perform_setCycleHz hz s o).trans (congrArg (withCycleHz hz) h)

end Sys2Proof.Machine

/-! PROOFS. Reset and the end of a program (spec/70_reset_and_hazards.md R200, R203, R218): the memory a `RESET` leaves,
read region by region, the reset state as a `START` leaves it, and the `JP` to itself that no `STEP` gets past. -/

namespace Sys2Proof.Machine

open Sys2Proof.Claims

/-! ### The end of a program (R218) -/

/-- At a program's end a `STEP` jumps to where `PC` is: it only clears the redraw flag (R100, R103). -/
theorem step_of_ended {s : State} (hready : s.ready = true) (h : Ended s) : step s = .next s.clearRedraw := by
  obtain ⟨hfault, hpc, nnn, hjp, htarget⟩ := h
  have hself : addrOperand nnn = s.pc := BitVec.eq_of_toNat_eq ((addrOperand_toNat nnn).trans htarget)
  calc step s
    _ = exec (.jp nnn) s.clearRedraw := step_of_decode hready hfault hpc hjp
    _ = .next (s.clearRedraw.goto (addrOperand nnn)) := rfl
    _ = .next s.clearRedraw := by rw [hself]; rfl

/-- Settles O50: the first `STEP` only clears the redraw flag (`step_of_ended`), and the state it leaves has ended too, so a
further `STEP` keeps it. -/
theorem selfJumpEndsTheRun : Obligations.SelfJumpEndsTheRun := by
  intro s k hready hended
  have hagain : step s.clearRedraw = .next s.clearRedraw := step_of_ended (s := s.clearRedraw) hready hended
  rw [core_run_succ (step_of_ended hready hended)]
  exact core_run_of_step_eq_self hagain k

/-! ### The state a `RESET` leaves (R36, R200, R202, R203) -/

theorem perform_reset_of_tooLong {rom : List Byte} (h : 3584 < rom.length) (s : State) :
    perform (.reset rom) s = .refused .romTooLong :=
  if_neg fun hfits => Nat.not_le.2 h ((romFits_iff rom).1 hfits)

section
variable (s : State) (rom : List Byte)

theorem State.afterReset_readByte_of_outside {a : Nat} (h : a < 512 ∨ 512 + rom.length ≤ a) :
    (s.afterReset rom).readByte a = Memory.background s.params.font a :=
  Memory.read_cells_of_outside s.params.font rom 512 a h

theorem State.afterReset_readByte_glyph (d : Fin 16) (j : Fin 5) :
    (s.afterReset rom).readByte (5 * d.val + j.val) = (s.params.font[d.val])[j.val] := by
  rw [s.afterReset_readByte_of_outside rom (by omega), Memory.background_glyph]

theorem State.afterReset_readByte_zero {a : Nat} (hfont : 80 ≤ a) (h : a < 512 ∨ 512 + rom.length ≤ a) :
    (s.afterReset rom).readByte a = 0#8 := by
  rw [s.afterReset_readByte_of_outside rom h, Memory.background_zero _ hfont]

theorem State.afterReset_readByte_rom {rom : List Byte} (hfits : rom.length ≤ 3584) (j : Nat) (h : j < rom.length) :
    (s.afterReset rom).readByte (512 + j) = rom[j] :=
  Memory.read_cells_inside s.params.font rom 512 j h (by omega)

theorem State.afterReset_reg (r : Reg) : (s.afterReset rom).reg r = 0#8 := Vector.getElem_replicate r.isLt

theorem State.afterReset_stack (j : Fin 16) : (s.afterReset rom).stack[j.val] = 0#16 := Vector.getElem_replicate j.isLt

theorem State.afterReset_keyDown (k : Reg) : (s.afterReset rom).keyDown k = false := Vector.getElem_replicate k.isLt

end

/-- Settles O55: a ROM that fits leads to `State.afterReset`, whose memory is read by region and whose other pieces are
the reset values; a longer one is refused. -/
theorem resetInstallsEveryResetValue : Obligations.ResetInstallsEveryResetValue := by
  refine fun s rom => ⟨fun hfits => ⟨s.afterReset rom, perform_reset_of_fits hfits s, s.afterReset_reg rom, rfl, rfl,
    s.afterReset_stack rom, rfl, s.afterReset_readByte_glyph rom, ?lowZero, s.afterReset_readByte_rom hfits, ?highZero,
    Framebuffer.cell_clear, s.afterReset_keyDown rom, rfl, rfl, rfl, rfl, rfl, rfl⟩,
    fun hlong => perform_reset_of_tooLong hlong s⟩
  case lowZero => exact fun a hfont ha => s.afterReset_readByte_zero rom hfont (.inl ha)
  case highZero => exact fun a ha _ => s.afterReset_readByte_zero rom (by omega) (.inr ha)

/-- Settles O14: `State.reset` is what a `START` of the empty ROM leaves of itself, and a `START` establishes the
invariant (`State.started_inv`). -/
theorem resetMeetsTheInvariant : Obligations.ResetMeetsTheInvariant :=
  State.started_inv State.reset (rom := []) (Nat.zero_le _)

end Sys2Proof.Machine
